-- ==== Sys2Proof/Word.lean ====
section
/-! DEFINITION. The words of the block: the transport byte, the nibble, and the one conversion from a flag to a bit. -/

namespace Sys2Proof

/-- A transport byte, a request byte, a command byte (00_scope R15, R17). -/
abbrev Byte := BitVec 8

/-- A 4-bit half of a byte (00_scope R15). -/
abbrev Nibble := BitVec 4

/-- `b2i` of 00_scope R18, already widened to a byte. -/
def b2i (b : Bool) : Byte := if b then 1 else 0

end Sys2Proof
end

