-- ==== Sys2Proof/Config.lean ====
section
/-! DEFINITION. What is fixed for a block: the construction record, the policy and timing parameters with their defaults, among
them the HD44780 command table, the row table, and the two free values (the transport's answers and the moments events end). -/

namespace Sys2Proof

/-- DeviceConfig (10_state R34): immutable after construction. `targetAddress` is the byte that contains the 7-bit address
(90_conflicts C5), so that a bad one can be written down and refused. -/
structure DeviceConfig where
  busPath : String
  targetAddress : Byte
  lines : Nat
  columns : Nat
  deriving DecidableEq, Repr

/-- FAILURE_POLICY (00_scope R14). -/
inductive FailurePolicy
  | bestEffort
  | propagate
  deriving DecidableEq, Repr

/-- The names a timed wait can carry (00_scope R14, 70_reset_and_hazards R276). -/
inductive WaitName
  | tPowerOn
  | tForce
  | tForce3
  | tInstr
  | tToggle
  | tClearHome
  deriving DecidableEq, Repr

/-- HD_CODES (00_scope R14, decision D3): for each command named in the source without a number, its code with the operand bits clear, and
after it the bit of each operand. SET_CGRAM_ADDRESS and SET_DDRAM_ADDRESS are not in it: the source fixes their codes (30_encoding R103,
R104). -/
structure HdCodes where
  clearDisplay : Byte
  returnHome : Byte
  entryModeSet : Byte
  /-- I of ENTRY_MODE_SET: increment. -/
  entryIncrement : Byte
  /-- S of ENTRY_MODE_SET: auto-shift. -/
  entryAutoShift : Byte
  displayControl : Byte
  /-- D of DISPLAY_CONTROL. -/
  displayOn : Byte
  /-- C of DISPLAY_CONTROL. -/
  cursorOn : Byte
  /-- B of DISPLAY_CONTROL. -/
  blinkOn : Byte
  shift : Byte
  /-- S of SHIFT: the display, not the cursor. -/
  shiftDisplay : Byte
  /-- R of SHIFT: right, not left. -/
  shiftRight : Byte
  functionSet : Byte
  /-- DL of FUNCTION_SET: an 8-bit bus. -/
  busWidth8 : Byte
  /-- N of FUNCTION_SET: two lines. -/
  twoLines : Byte
  /-- F of FUNCTION_SET: the 5x10 font. -/
  font5x10 : Byte
  deriving DecidableEq, Repr

/-- The policy and timing parameters of 00_scope R14 that are not fixed (log 5), HD_CODES among them (log 6); times in microseconds. -/
structure Params where
  failurePolicy : FailurePolicy
  tForce3 : Nat
  tInstr : Nat
  tToggle : Nat
  tClearHome : Nat
  hdCodes : HdCodes
  deriving DecidableEq, Repr

/-- The minimum of a named wait: T_POWERON and T_FORCE are fixed at 5000, the others are parameters (00_scope R14). -/
def Params.minimum (p : Params) : WaitName → Nat
  | .tPowerOn => 5000
  | .tForce => 5000
  | .tForce3 => p.tForce3
  | .tInstr => p.tInstr
  | .tToggle => p.tToggle
  | .tClearHome => p.tClearHome

/-- The lower bound the spec puts on each wait (70_reset_and_hazards R276). -/
def WaitName.lowerBound : WaitName → Nat
  | .tPowerOn => 5000
  | .tForce => 5000
  | .tForce3 => 100
  | .tInstr => 100
  | .tToggle => 1000
  | .tClearHome => 10000

/-- The parameters respect the bounds of 00_scope R14. -/
abbrev Params.InContract (p : Params) : Prop :=
  100 ≤ p.tForce3 ∧ 100 ≤ p.tInstr ∧ 1000 ≤ p.tToggle ∧ 10000 ≤ p.tClearHome

/-- How a transport write ended (20_memory R68). -/
inductive TransportResult
  | ok
  | acquireFail
  | targetFail
  | shortWrite (k : Nat)
  deriving DecidableEq, Repr, Inhabited

namespace Config

/-- The default of HD_CODES: the standard table of 30_encoding R97 to R102. PRESUMED, unsafe (log 6). -/
def hdCodes : HdCodes where
  clearDisplay := 0x01
  returnHome := 0x02
  entryModeSet := 0x04
  entryIncrement := 0x02
  entryAutoShift := 0x01
  displayControl := 0x08
  displayOn := 0x04
  cursorOn := 0x02
  blinkOn := 0x01
  shift := 0x10
  shiftDisplay := 0x08
  shiftRight := 0x04
  functionSet := 0x20
  busWidth8 := 0x10
  twoLines := 0x08
  font5x10 := 0x04

/-- The code of SET_CGRAM_ADDRESS (30_encoding R103). -/
def setCgramAddress : Byte := 0x40

/-- The code of SET_DDRAM_ADDRESS (30_encoding R104). -/
def setDdramAddress : Byte := 0x80

/-- ROW_OFFSET (10_state R54, 43_output_ops R182). -/
def rowOffsets : List Nat := [0x00, 0x40, 0x14, 0x54]

/-- The parameter defaults of 00_scope R14. -/
def defaultParams : Params where
  failurePolicy := .bestEffort
  tForce3 := 100
  tInstr := 100
  tToggle := 1000
  tClearHome := 10000
  hdCodes := hdCodes

/-- The construction record of `State.reset`. The spec gives these no value. DESIGN CHOICE, unsafe (log 4). -/
def defaultDevice : DeviceConfig where
  busPath := ""
  targetAddress := 0
  lines := 2
  columns := 16

/-- FREE VALUE: the transport's answer to the write made at a given index. Nothing constrains it (20_memory R68, log 2). -/
opaque transportResult : Nat → TransportResult

/-- FREE VALUE: whether the event being performed is over at a given index: the transport call has returned, or the clock has
ended the wait (20_memory R77, 70_reset_and_hazards R275, log 3). -/
opaque eventEnds : Nat → Bool

end Config

end Sys2Proof
end

