-- ==== Sys2Proof/Syntax.lean ====
section
/-! DEFINITION. The instruction set: one constructor for each of the 31 rows of spec/opcode_table.json. -/

namespace Sys2Proof

/-- The formats of spec/opcode_table.json: where a row's words are read from. WIRE3 and WIRE6 are told apart by length (30_encoding
R115). -/
inductive Format
  /-- REQ: a byte string on the request port (30_encoding R110). -/
  | request
  /-- CMD: the payload of a burst with RS = 0 (30_encoding, section 2). -/
  | command
  /-- DATA: the payload of a burst with RS = 1 (30_encoding R105). -/
  | data
  /-- NIBBLE: the nibble of a single frame with RS = 0 (30_encoding R106). -/
  | nibble
  /-- WIRE3 and WIRE6: a whole transport write (30_encoding R95, R96). -/
  | wire
  deriving DecidableEq, Repr

/-- The rows of the opcode table. The first eighteen are the host's requests (30_encoding R111); the rest are what the
sequencer performs from its pending list (log 10). -/
inductive Instr
  /-- 43_output_ops R180. -/
  | writeChar (b : Byte)
  /-- 43_output_ops R181; the count is the length of the string. -/
  | printString (str : List Byte)
  /-- 43_output_ops R182, R183. -/
  | setCursorPosition (column line : Byte)
  /-- 43_output_ops R184; row 0 first. -/
  | loadCustomChar (cell : Byte) (bitmap : Vector Byte 8)
  /-- 44_control_ops R200. -/
  | displayOn
  /-- 44_control_ops R201. -/
  | displayOff
  /-- 44_control_ops R202. -/
  | cursorOn
  /-- 44_control_ops R203. -/
  | cursorOff
  /-- 44_control_ops R204. -/
  | blinkOn
  /-- 44_control_ops R205. -/
  | blinkOff
  /-- 44_control_ops R206. -/
  | cursorShiftLeft
  /-- 44_control_ops R207. -/
  | cursorShiftRight
  /-- 44_control_ops R208. -/
  | displayShiftLeft
  /-- 44_control_ops R209. -/
  | displayShiftRight
  /-- 44_control_ops R210. -/
  | backlightOn
  /-- 44_control_ops R211. -/
  | backlightOff
  /-- 44_control_ops R212. -/
  | clearDisplay
  /-- 44_control_ops R213: sends CLEAR_DISPLAY. -/
  | returnHome
  /-- CLEAR_DISPLAY, 30_encoding R97. -/
  | cmdClearDisplay
  /-- RETURN_HOME, 30_encoding R98; `x` is the don't-care bit, sent 0. -/
  | cmdReturnHome (x : Bool)
  /-- ENTRY_MODE_SET, 30_encoding R99: I = increment, S = auto-shift. -/
  | cmdEntryModeSet (inc shift : Bool)
  /-- DISPLAY_CONTROL, 30_encoding R100. -/
  | cmdDisplayControl (d c b : Bool)
  /-- SHIFT, 30_encoding R101: S = display, R = right; `x` is sent 0. -/
  | cmdShift (display right : Bool) (x : BitVec 2)
  /-- FUNCTION_SET, 30_encoding R102; `x` is sent 0. -/
  | cmdFunctionSet (dl n f : Bool) (x : BitVec 2)
  /-- SET_CGRAM_ADDRESS, 30_encoding R103. -/
  | cmdSetCgramAddress (a : BitVec 6)
  /-- SET_DDRAM_ADDRESS, 30_encoding R104. -/
  | cmdSetDdramAddress (a : BitVec 7)
  /-- DATA_WRITE, 30_encoding R105. -/
  | dataWrite (d : Byte)
  /-- FORCE8, 30_encoding R106. -/
  | nibbleForce8
  /-- MODE4, 30_encoding R106. -/
  | nibbleMode4
  /-- frame, 30_encoding R95: nibble, BL, RS. -/
  | wireFrame (n : Nibble) (bl rs : Bool)
  /-- burst, 30_encoding R96: high nibble, low nibble, BL, RS. -/
  | wireBurst (hi lo : Nibble) (bl rs : Bool)
  deriving DecidableEq, Repr

/-- The format of an instruction's row in spec/opcode_table.json. -/
def Instr.format : Instr → Format
  | .writeChar _ | .printString _ | .setCursorPosition _ _ | .loadCustomChar _ _ => .request
  | .displayOn | .displayOff | .cursorOn | .cursorOff | .blinkOn | .blinkOff => .request
  | .cursorShiftLeft | .cursorShiftRight | .displayShiftLeft | .displayShiftRight => .request
  | .backlightOn | .backlightOff | .clearDisplay | .returnHome => .request
  | .cmdClearDisplay | .cmdReturnHome _ | .cmdEntryModeSet _ _ | .cmdDisplayControl _ _ _ => .command
  | .cmdShift _ _ _ | .cmdFunctionSet _ _ _ _ | .cmdSetCgramAddress _ | .cmdSetDdramAddress _ => .command
  | .dataWrite _ => .data
  | .nibbleForce8 | .nibbleMode4 => .nibble
  | .wireFrame _ _ _ | .wireBurst _ _ _ _ => .wire

end Sys2Proof
end

