-- ==== Sys2Proof/WellFormed.lean ====
section
/-! DEFINITION. What an instruction's operands must satisfy to have words of their own: the only limits the encodings put on
operands that their types do not already express. -/

namespace Sys2Proof

/-- The check, as a Bool. `print_string` counts its bytes in one byte (30_encoding R112); the don't-care bits of
RETURN_HOME, SHIFT and FUNCTION_SET are sent as 0 (R98, R101, R102). Every other operand takes every value of its type:
an out-of-range `line` or `cell` is a legal request (43_output_ops R183, R184). -/
def Instr.wellFormed : Instr → Bool
  | .printString str => decide (str.length ≤ 255)
  | .cmdReturnHome x => !x
  | .cmdShift _ _ x => x == 0
  | .cmdFunctionSet _ _ _ x => x == 0
  | .writeChar _ | .setCursorPosition _ _ | .loadCustomChar _ _ => true
  | .displayOn | .displayOff | .cursorOn | .cursorOff | .blinkOn | .blinkOff => true
  | .cursorShiftLeft | .cursorShiftRight | .displayShiftLeft | .displayShiftRight => true
  | .backlightOn | .backlightOff | .clearDisplay | .returnHome => true
  | .cmdClearDisplay | .cmdEntryModeSet _ _ | .cmdDisplayControl _ _ _ => true
  | .cmdSetCgramAddress _ | .cmdSetDdramAddress _ | .dataWrite _ => true
  | .nibbleForce8 | .nibbleMode4 | .wireFrame _ _ _ | .wireBurst _ _ _ _ => true

/-- The same check as a proposition. -/
abbrev Instr.WellFormed (i : Instr) : Prop := i.wellFormed = true

end Sys2Proof
end

