-- ==== Sys2Proof/Decode.lean ====
section
/-! DEFINITION. The decoders, total on any bytes and rejecting by name, one for each format of the opcode table, under the block's
command table (HD_CODES); after them the encoder; last the reading of a table word (`decodeTableWord`). -/

namespace Sys2Proof

/-- Why bytes are no instruction of the format they are read in. -/
inductive DecodeError
  /-- 30_encoding R113: a request code that is in no row of R111. -/
  | reservedRequest
  /-- 30_encoding R113: the byte string ends before the length R112 gives its code (the empty string has no code: log 8). -/
  | truncatedRequest
  /-- A byte that is no command's; with the standard table, 0x00 only (30_encoding R97 to R104). -/
  | reservedCommand
  /-- A nibble other than FORCE8 and MODE4, or no nibble (30_encoding R106). -/
  | reservedNibble
  /-- A payload that is not one byte. -/
  | notOneByte
  /-- A transport write that is neither a frame nor a burst (30_encoding R115). -/
  | malformedWrite
  deriving DecidableEq, Repr

/-! ## The request port -/

/-- A row of 30_encoding R111: its code, and how the operand bytes after the code are read; `none` where the string ends before
the row's length. The bytes left over are returned unread (R110). -/
structure RequestRow where
  code : Byte
  parse : List Byte → Option (Instr × List Byte)

/-- A row without operands. -/
def bareRow (code : Byte) (i : Instr) : RequestRow := ⟨code, fun rest => some (i, rest)⟩

/-- Operand of `write_char` (R111: byte 1). -/
def parseWriteChar : List Byte → Option (Instr × List Byte)
  | b :: rest => some (.writeChar b, rest)
  | _ => none

/-- Operands of `print_string` (R111: a count, then that many bytes). -/
def parsePrintString : List Byte → Option (Instr × List Byte)
  | n :: rest => if n.toNat ≤ rest.length then some (.printString (rest.take n.toNat), rest.drop n.toNat) else none
  | _ => none

/-- Operands of `set_cursor_position` (R111: column, line). -/
def parseSetCursorPosition : List Byte → Option (Instr × List Byte)
  | column :: line :: rest => some (.setCursorPosition column line, rest)
  | _ => none

/-- Operands of `load_custom_char` (R111: cell, then eight rows). -/
def parseLoadCustomChar : List Byte → Option (Instr × List Byte)
  | cell :: b0 :: b1 :: b2 :: b3 :: b4 :: b5 :: b6 :: b7 :: rest =>
    some (.loadCustomChar cell #v[b0, b1, b2, b3, b4, b5, b6, b7], rest)
  | _ => none

/-- The request rows, in the order of 30_encoding R111. -/
def requestRows : List RequestRow :=
  [⟨0x01, parseWriteChar⟩, ⟨0x02, parsePrintString⟩, ⟨0x03, parseSetCursorPosition⟩, ⟨0x04, parseLoadCustomChar⟩] ++
  [bareRow 0x10 .displayOn, bareRow 0x11 .displayOff, bareRow 0x12 .cursorOn, bareRow 0x13 .cursorOff,
    bareRow 0x14 .blinkOn, bareRow 0x15 .blinkOff] ++
  [bareRow 0x20 .cursorShiftLeft, bareRow 0x21 .cursorShiftRight, bareRow 0x22 .displayShiftLeft,
    bareRow 0x23 .displayShiftRight] ++
  [bareRow 0x30 .backlightOn, bareRow 0x31 .backlightOff, bareRow 0x40 .clearDisplay, bareRow 0x41 .returnHome]

/-- The row of a request code, if the code is not reserved (R113). -/
def requestRow (code : Byte) : Option RequestRow := requestRows.find? (fun row => row.code == code)

/-- The request port's decoder (30_encoding R110 to R113): the instruction and the bytes it did not read. -/
def decodeRequest : List Byte → Except DecodeError (Instr × List Byte)
  | [] => .error .truncatedRequest
  | code :: rest =>
    match requestRow code with
    | none => .error .reservedRequest
    | some row =>
      match row.parse rest with
      | none => .error .truncatedRequest
      | some answer => .ok answer

/-! ## Command bytes, data bytes and nibbles -/

/-- An operand's bit, if the operand is set. -/
def bitIf (b : Bool) (bit : Byte) : Byte := if b then bit else 0

/-- The byte of a command under the table `codes` (30_encoding R97 to R104; log 6); 0 for a row of another format, which has none. -/
def commandByte (codes : HdCodes) : Instr → Byte
  | .cmdClearDisplay => codes.clearDisplay
  | .cmdReturnHome x => codes.returnHome ||| b2i x
  | .cmdEntryModeSet inc shift => codes.entryModeSet ||| bitIf inc codes.entryIncrement ||| bitIf shift codes.entryAutoShift
  | .cmdDisplayControl d c b =>
    codes.displayControl ||| bitIf d codes.displayOn ||| bitIf c codes.cursorOn ||| bitIf b codes.blinkOn
  | .cmdShift display right x =>
    codes.shift ||| bitIf display codes.shiftDisplay ||| bitIf right codes.shiftRight ||| x.setWidth 8
  | .cmdFunctionSet dl n f x =>
    codes.functionSet ||| bitIf dl codes.busWidth8 ||| bitIf n codes.twoLines ||| bitIf f codes.font5x10 ||| x.setWidth 8
  | .cmdSetCgramAddress a => Config.setCgramAddress ||| a.setWidth 8
  | .cmdSetDdramAddress a => Config.setDdramAddress ||| a.setWidth 8
  | .writeChar _ | .printString _ | .setCursorPosition _ _ | .loadCustomChar _ _ => 0
  | .displayOn | .displayOff | .cursorOn | .cursorOff | .blinkOn | .blinkOff => 0
  | .cursorShiftLeft | .cursorShiftRight | .displayShiftLeft | .displayShiftRight => 0
  | .backlightOn | .backlightOff | .clearDisplay | .returnHome => 0
  | .dataWrite _ | .nibbleForce8 | .nibbleMode4 | .wireFrame _ _ _ | .wireBurst _ _ _ _ => 0

/-- Both values of a flag. -/
def flags : List Bool := [false, true]

/-- Every value of a field of `w` bits. -/
def values (w : Nat) : List (BitVec w) := (List.range (2 ^ w)).map (BitVec.ofNat w)

/-- Every command, row by row in the order of spec/opcode_table.json, with every operand. -/
def commands : List Instr :=
  [.cmdClearDisplay] ++ flags.map .cmdReturnHome ++
  flags.flatMap (fun inc => flags.map (.cmdEntryModeSet inc)) ++
  flags.flatMap (fun d => flags.flatMap fun c => flags.map (.cmdDisplayControl d c)) ++
  flags.flatMap (fun display => flags.flatMap fun right => (values 2).map (.cmdShift display right)) ++
  flags.flatMap (fun dl => flags.flatMap fun n => flags.flatMap fun f => (values 2).map (.cmdFunctionSet dl n f)) ++
  (values 6).map .cmdSetCgramAddress ++ (values 7).map .cmdSetDdramAddress

/-- No two commands have the same byte under the table. -/
abbrev HdCodes.Unambiguous (codes : HdCodes) : Prop := (commands.map (commandByte codes)).Nodup

/-- The command a byte written with RS = 0 is: the first whose byte it is, if there is one. -/
def decodeCommandByte (codes : HdCodes) (v : Byte) : Option Instr := commands.find? (fun i => commandByte codes i == v)

/-- The initialization nibbles (30_encoding R106). -/
def decodeNibble (n : Nibble) : Option Instr :=
  if n = 0x3 then some .nibbleForce8 else if n = 0x2 then some .nibbleMode4 else none

/-! ## Transport writes -/

/-- The three bytes of a frame read back: nibble, BL and RS, if they have the form of 30_encoding R95 (E = 1, 1, 0; RW = 0; no
other bit differs). -/
def readFrame (b0 b1 b2 : Byte) : Option (Nibble × Bool × Bool) :=
  if b0 = b2 ||| 0x04 ∧ b1 = b0 ∧ b2.getLsbD 2 = false ∧ b2.getLsbD 1 = false then
    some (b2.extractLsb' 4 4, b2.getLsbD 3, b2.getLsbD 0)
  else none

/-- The reader of a transport write (30_encoding R115): three bytes are one frame, six are one burst, whose two frames carry the
same BL and RS (41_command_encoder R142). -/
def decodeWire : List Byte → Option Instr
  | [b0, b1, b2] => (readFrame b0 b1 b2).map (fun f => .wireFrame f.1 f.2.1 f.2.2)
  | [b0, b1, b2, b3, b4, b5] =>
    match readFrame b0 b1 b2, readFrame b3 b4 b5 with
    | some (hi, bl, rs), some (lo, bl', rs') => if bl = bl' ∧ rs = rs' then some (.wireBurst hi lo bl rs) else none
    | _, _ => none
  | _ => none

/-! ## All formats -/

/-- The decoder of a format, under a command table: the instruction and the bytes it did not read. -/
def decode (codes : HdCodes) : Format → List Byte → Except DecodeError (Instr × List Byte)
  | .request, bytes => decodeRequest bytes
  | .command, [v] =>
    match decodeCommandByte codes v with
    | some i => .ok (i, [])
    | none => .error .reservedCommand
  | .data, [v] => .ok (.dataWrite v, [])
  | .nibble, [v] =>
    match decodeNibble (v.setWidth 4) with
    | some i => if v.toNat < 16 then .ok (i, []) else .error .reservedNibble
    | none => .error .reservedNibble
  | .wire, bytes =>
    match decodeWire bytes with
    | some i => .ok (i, [])
    | none => .error .malformedWrite
  | _, _ => .error .notOneByte

/-- What the sequencer reads from a transport write at the head of its pending list: the row whose words, under the table `codes`, the
write carries. A frame or burst that carries the shadow's backlight bit `bl` is read down to its payload (R115: RS in bit 0, the value
from the two nibbles); any other well-formed write is the frame or burst itself (log 10). -/
def fetchWrite (codes : HdCodes) (bl : Bool) (bytes : List Byte) : Option Instr :=
  match decodeWire bytes with
  | some (.wireFrame n l rs) =>
    if l = bl ∧ rs = false then some ((decodeNibble n).getD (.wireFrame n l rs)) else some (.wireFrame n l rs)
  | some (.wireBurst hi lo l rs) =>
    if l = bl then
      if rs then some (.dataWrite (hi ++ lo)) else some ((decodeCommandByte codes (hi ++ lo)).getD (.wireBurst hi lo l rs))
    else some (.wireBurst hi lo l rs)
  | _ => none

/-! ## The encoder -/

/-- Bits from flags: the most significant first. -/
def bits2 (a b : Bool) : BitVec 2 := BitVec.ofBool a ++ BitVec.ofBool b

/-- The pattern `nnnnl10r nnnnl10r nnnnl00r` of 30_encoding R95. -/
def frameWords (n : Nibble) (bl rs : Bool) : List Byte :=
  let high : Byte := n ++ bits2 bl true ++ bits2 false rs
  let low : Byte := n ++ bits2 bl false ++ bits2 false rs
  [high, high, low]

/-- The words of an instruction in its own format: request bytes (30_encoding R111), the command byte under the table `codes` (R97 to
R104), the data byte (R105), the nibble in the low half of a byte (R106), or the transport bytes (R95, R96). -/
def encode (codes : HdCodes) : Instr → List Byte
  | .writeChar b => [0x01, b]
  | .printString str => 0x02 :: BitVec.ofNat 8 str.length :: str
  | .setCursorPosition column line => [0x03, column, line]
  | .loadCustomChar cell bitmap => 0x04 :: cell :: bitmap.toList
  | .displayOn => [0x10]
  | .displayOff => [0x11]
  | .cursorOn => [0x12]
  | .cursorOff => [0x13]
  | .blinkOn => [0x14]
  | .blinkOff => [0x15]
  | .cursorShiftLeft => [0x20]
  | .cursorShiftRight => [0x21]
  | .displayShiftLeft => [0x22]
  | .displayShiftRight => [0x23]
  | .backlightOn => [0x30]
  | .backlightOff => [0x31]
  | .clearDisplay => [0x40]
  | .returnHome => [0x41]
  | .cmdClearDisplay => [commandByte codes .cmdClearDisplay]
  | .cmdReturnHome x => [commandByte codes (.cmdReturnHome x)]
  | .cmdEntryModeSet inc shift => [commandByte codes (.cmdEntryModeSet inc shift)]
  | .cmdDisplayControl d c b => [commandByte codes (.cmdDisplayControl d c b)]
  | .cmdShift display right x => [commandByte codes (.cmdShift display right x)]
  | .cmdFunctionSet dl n f x => [commandByte codes (.cmdFunctionSet dl n f x)]
  | .cmdSetCgramAddress a => [commandByte codes (.cmdSetCgramAddress a)]
  | .cmdSetDdramAddress a => [commandByte codes (.cmdSetDdramAddress a)]
  | .dataWrite d => [d]
  | .nibbleForce8 => [0b00000011#8]
  | .nibbleMode4 => [0b00000010#8]
  | .wireFrame n bl rs => frameWords n bl rs
  | .wireBurst hi lo bl rs => frameWords hi bl rs ++ frameWords lo bl rs

/-! ## Table words -/

/-- The first `k` bytes of a number, least significant first. -/
def bytesFrom (k w : Nat) : List Byte := (List.range k).map (fun j => BitVec.ofNat 8 (w >>> (8 * j)))

/-- The format a word of the opcode table is read in, and its bytes; the table is written for the standard HD_CODES. The six formats
of the table share their bits, so a word alone does not name one (log 9): 24 and 48 bits that are a frame or a burst are read as that,
with the table's numbering (its first byte in the highest bits) before the first-byte-lowest one; every other word is a request, its
operand bytes zero, unless it is one byte the request port refuses as reserved: that one is a command byte, or, where no command row
has it, a data byte. Four bits are a nibble. -/
def tableWord (nbits w : Nat) : Format × List Byte :=
  let low := bytesFrom (nbits / 8) w
  if nbits = 4 then (.nibble, [BitVec.ofNat 8 (w % 16)])
  else if (decodeWire low.reverse).isSome then (.wire, low.reverse)
  else if (decodeWire low).isSome then (.wire, low)
  else if nbits = 8 ∧ (requestRow (BitVec.ofNat 8 w)).isNone then
    if (decodeCommandByte Config.hdCodes (BitVec.ofNat 8 w)).isSome then (.command, [BitVec.ofNat 8 w]) else (.data, [BitVec.ofNat 8 w])
  else (.request, low ++ List.replicate 257 0)

/-- The instruction the decoder reads from an instruction whose bits are `w`, numbered as the opcode table numbers them; the bits
above `nbits` are zero. -/
def decodeTableWord (nbits w : Nat) : Option Instr :=
  match decode Config.hdCodes (tableWord nbits w).1 (tableWord nbits w).2 with
  | .ok answer => some answer.1
  | .error _ => none

end Sys2Proof
end

