-- ==== Sys2Proof/Machine/Vocabulary.lean ====
section
/-! DEFINITION. The plain data the state is made of: the control shadow with its reset value and packed view, events, phase, status,
fault and refusal reasons, trace entries; and the check of a configuration. -/

namespace Sys2Proof.Machine

/-- Address counter direction (10_state R39). -/
inductive Direction
  | increment
  | decrement
  deriving DecidableEq, Repr

/-- What a shift command moves (10_state R39). -/
inductive Scope
  | cursor
  | display
  deriving DecidableEq, Repr

/-- Where a shift command moves it (10_state R39). -/
inductive Side
  | left
  | right
  deriving DecidableEq, Repr

/-- ControlShadow: exactly eight fields (10_state R39). -/
structure Shadow where
  displayOn : Bool
  cursorOn : Bool
  blinkOn : Bool
  entryDirection : Direction
  entryAutoShift : Bool
  shiftScope : Scope
  shiftDirection : Side
  backlightOn : Bool
  deriving DecidableEq, Repr

/-- The shadow's reset values, SHADOW = 0x94 (10_state R59). -/
def Shadow.reset : Shadow where
  displayOn := true
  cursorOn := false
  blinkOn := false
  entryDirection := .increment
  entryAutoShift := false
  shiftScope := .cursor
  shiftDirection := .left
  backlightOn := true

/-- A flag in bit `k` of a byte. -/
def bitAt (k : Nat) (b : Bool) : Byte := b2i b <<< k

/-- The packed view SHADOW (10_state R40). -/
def Shadow.pack (sh : Shadow) : Byte :=
  bitAt 0 sh.blinkOn ||| bitAt 1 sh.cursorOn ||| bitAt 2 sh.displayOn ||| bitAt 3 sh.entryAutoShift |||
    bitAt 4 (sh.entryDirection == .increment) ||| bitAt 5 (sh.shiftDirection == .right) |||
    bitAt 6 (sh.shiftScope == .display) ||| bitAt 7 sh.backlightOn

/-- The shadow a packed value stands for (10_state R40: every 8-bit value is a legal SHADOW). -/
def Shadow.unpack (v : Byte) : Shadow where
  blinkOn := v.getLsbD 0
  cursorOn := v.getLsbD 1
  displayOn := v.getLsbD 2
  entryAutoShift := v.getLsbD 3
  entryDirection := if v.getLsbD 4 then .increment else .decrement
  shiftDirection := if v.getLsbD 5 then .right else .left
  shiftScope := if v.getLsbD 6 then .display else .cursor
  backlightOn := v.getLsbD 7

/-- `phase` (10_state R47). -/
inductive Phase
  | init
  | ready
  deriving DecidableEq, Repr

/-- An event still to perform (10_state R48). -/
inductive Event
  | tx (bytes : List Byte)
  | wait (name : WaitName)
  deriving DecidableEq, Repr

/-- `status` (10_state R49). -/
inductive Status
  | ok
  | acquireFail
  | targetFail
  | shortWrite
  deriving DecidableEq, Repr

/-- The closed list of model fault reasons (60_exceptions R233). -/
inductive FaultReason
  | lineOutOfRange
  deriving DecidableEq, Repr

/-- The closed list of refusal reasons (60_exceptions R234). -/
inductive RefusalReason
  | reservedRequest
  | truncatedRequest
  | badConfigLines
  | badConfigAddress
  deriving DecidableEq, Repr

/-- An entry of the event trace (00_scope R11). A write carries the bus name it was handed to (10_state R38, log 18), its address,
its bytes, its result and the delivered bytes (20_memory R69). -/
inductive TraceEvent
  | tx (bus : String) (address : Byte) (bytes : List Byte) (result : TransportResult) (delivered : List Byte)
  | wait (name : WaitName) (minimum : Nat)
  | fault (reason : FaultReason)
  | refusal (reason : RefusalReason)
  deriving DecidableEq, Repr

/-- The configuration check made at construction (60_exceptions R234): `lines` must be 1, 2 or 4, and the address at most 0x7F.
Where both fail, `lines` is the one reported (log 7). -/
def configRefusal (cfg : DeviceConfig) : Option RefusalReason :=
  if cfg.lines ≠ 1 ∧ cfg.lines ≠ 2 ∧ cfg.lines ≠ 4 then some .badConfigLines
  else if 0x7F < cfg.targetAddress.toNat then some .badConfigAddress
  else none

end Sys2Proof.Machine
end

