-- ==== Sys2Proof/Machine/Operands.lean ====
section
/-! DEFINITION. Every operand form of the block: the Nibble Framer (40_nibble_framer), the Command/Data Encoder with its composers
(41_command_encoder), the address computations (30_encoding R108, R109), and the events they make. All pure. -/

namespace Sys2Proof.Machine

/-! ## Nibbles and frames -/

/-- `v[7:4]`, sent first (30_encoding R107). -/
def highNibble (v : Byte) : Nibble := v.extractLsb' 4 4

/-- `v[3:0]`, sent second (30_encoding R107). -/
def lowNibble (v : Byte) : Nibble := v.extractLsb' 0 4

/-- `frame(n, rs, bl)` (40_nibble_framer R130): E is asserted in bytes 0 and 1 and cleared in byte 2; RW stays 0. -/
def frame (n : Nibble) (rs bl : Bool) : List Byte :=
  let base : Byte := (n.setWidth 8 <<< 4) ||| b2i rs ||| (b2i bl <<< 3)
  [base ||| 0x04, base ||| 0x04, base]

/-- The six bytes of `send_command` (41_command_encoder R140): the high nibble's frame, then the low nibble's. -/
def burst (value : Byte) (rs bl : Bool) : List Byte := frame (highNibble value) rs bl ++ frame (lowNibble value) rs bl

/-! ## Composers -/

/-- `display_control_byte(sh)` (41_command_encoder R144): the whole group, as the shadow holds it. -/
def displayControlByte (codes : HdCodes) (sh : Shadow) : Byte :=
  commandByte codes (.cmdDisplayControl sh.displayOn sh.cursorOn sh.blinkOn)

/-- `entry_mode_byte(sh)` (41_command_encoder R144). -/
def entryModeByte (codes : HdCodes) (sh : Shadow) : Byte :=
  commandByte codes (.cmdEntryModeSet (sh.entryDirection == .increment) sh.entryAutoShift)

/-- `shift_byte(sh)` (41_command_encoder R144). -/
def shiftByte (codes : HdCodes) (sh : Shadow) : Byte :=
  commandByte codes (.cmdShift (sh.shiftScope == .display) (sh.shiftDirection == .right) 0)

/-- FUNCTION_SET_4BIT_2LINE_5x8 (41_command_encoder R145): DL = 0, N = 1, F = 0. -/
def functionSetByte (codes : HdCodes) : Byte := commandByte codes (.cmdFunctionSet false true false 0)

/-- CLEAR_DISPLAY (41_command_encoder R145). -/
def clearDisplayByte (codes : HdCodes) : Byte := commandByte codes .cmdClearDisplay

/-- RETURN_HOME (41_command_encoder R145), with its don't-care bit 0. -/
def returnHomeByte (codes : HdCodes) : Byte := commandByte codes (.cmdReturnHome false)

/-- `ROW_OFFSET[line]`; none past the table (41_command_encoder R146). -/
def rowOffset (line : Byte) : Option Nat := Config.rowOffsets[line.toNat]?

/-- `ddram_cmd` on a row's offset (30_encoding R108): the sum modulo 128. -/
def ddramCommand (codes : HdCodes) (column : Byte) (offset : Nat) : Byte :=
  commandByte codes (.cmdSetDdramAddress (BitVec.ofNat 7 (column.toNat + offset)))

/-- `cgram_cmd(cell)` for a cell of 0 to 7 (41_command_encoder R147). -/
def cgramCommand (codes : HdCodes) (cell : Byte) : Byte := commandByte codes (.cmdSetCgramAddress (cell.setWidth 6 <<< 3))

/-! ## Events -/

/-- `pulse_nibble(n)` (40_nibble_framer R132): one frame, RS = 0, BL from the shadow. -/
def pulseNibble (n : Nibble) (sh : Shadow) : Event := .tx (frame n false sh.backlightOn)

/-- `send_command(rs, value)` (41_command_encoder R140): one write of six bytes, BL from the shadow. -/
def sendCommand (rs : Bool) (value : Byte) (sh : Shadow) : Event := .tx (burst value rs sh.backlightOn)

/-- `issue(rs, value, T)` (41_command_encoder R149): the write, then its settle wait. -/
def issue (rs : Bool) (value : Byte) (name : WaitName) (sh : Shadow) : List Event := [sendCommand rs value sh, .wait name]

end Sys2Proof.Machine
end

