-- ==== Sys2Proof/Machine/Init.lean ====
section
/-! DEFINITION. The Initialization Sequencer's list of events, step by step (42_init_sequencer R161 to R168). -/

namespace Sys2Proof.Machine

/-- Step 1, the power-on settle (42_init_sequencer R161). -/
def initPowerOn : List Event := [.wait .tPowerOn]

/-- Step 2, the 8-bit force: three pulses of 0x3 (42_init_sequencer R162). -/
def initForce (sh : Shadow) : List Event :=
  [pulseNibble 0x3 sh, .wait .tForce, pulseNibble 0x3 sh, .wait .tForce, pulseNibble 0x3 sh, .wait .tForce3]

/-- Step 3, the 4-bit switch (42_init_sequencer R163). -/
def initMode4 (sh : Shadow) : List Event := [pulseNibble 0x2 sh, .wait .tInstr]

/-- Steps 4 to 7: FUNCTION_SET, DISPLAY_CONTROL, ENTRY_MODE_SET, SHIFT (42_init_sequencer R164 to R167). -/
def initGroups (codes : HdCodes) (sh : Shadow) : List Event :=
  issue false (functionSetByte codes) .tInstr sh ++ issue false (displayControlByte codes sh) .tInstr sh ++
    issue false (entryModeByte codes sh) .tInstr sh ++ issue false (shiftByte codes sh) .tInstr sh

/-- Step 8: CLEAR_DISPLAY, then RETURN_HOME (42_init_sequencer R168). -/
def initClearHome (codes : HdCodes) (sh : Shadow) : List Event :=
  issue false (clearDisplayByte codes) .tClearHome sh ++ issue false (returnHomeByte codes) .tClearHome sh

/-- INIT_EVENTS (42_init_sequencer R169) under a command table, composed from the reset shadow (R160: the shadow takes its defaults
first). -/
def initEvents (codes : HdCodes) : List Event :=
  initPowerOn ++ initForce .reset ++ initMode4 .reset ++ initGroups codes .reset ++ initClearHome codes .reset

end Sys2Proof.Machine
end

