-- ==== Sys2Proof/Machine/State.lean ====
section
/-! DEFINITION. The state of the block (10_state R30), the parameters it was built with (00_scope R14), the observation (00_scope
R11) and the other agents' inputs, all as plain data; what can stop a step; construction and reset. -/

namespace Sys2Proof.Machine

/-- The state. `cfg` to `refused` are the spec's tuple (10_state R30); the rest is what the model holds beside it (log 1). -/
structure State where
  /-- DeviceConfig (R34). -/
  cfg : DeviceConfig
  /-- Policy, timing and command-table parameters (00_scope R14); never written. -/
  params : Params
  /-- ControlShadow (R39). -/
  sh : Shadow
  /-- R47. -/
  phase : Phase
  /-- R48: performed from the head. -/
  pending : List Event
  /-- R49. -/
  status : Status
  /-- R50: sticky. -/
  fault : Option FaultReason
  /-- R51: sticky. -/
  refused : Bool
  /-- 00_scope R11: the observation, oldest first. -/
  trace : List TraceEvent
  /-- The request port: byte strings presented and not yet taken, oldest first (60_exceptions R237). -/
  requests : List (List Byte)
  /-- The reset input, asserted and not yet taken (70_reset_and_hazards R262). -/
  resetIn : Bool
  /-- The index of the next free value: the model's own (log 2). -/
  draws : Nat
  deriving DecidableEq, Repr

/-- What the machine stops with as a fault. -/
inductive Fault
  /-- Raised by every step of a block whose `fault` is set, and by every meaning run on such a block: it accepts no request and
  performs no event (60_exceptions R235). Safe: nothing happens where the spec says nothing happens (log 11). -/
  | faulted (reason : FaultReason)
  deriving DecidableEq, Repr

/-- What the machine stops with as a refusal. -/
inductive Refusal
  /-- Raised by `exec`'s arm of an instruction that has no meaning yet; no arm does. Safe. -/
  | notModelled (mnemonic : String)
  /-- Raised by every step of a block whose `refused` mark is set, and by every meaning run on such a block (60_exceptions R235).
  Safe (log 12). -/
  | blockRefused
  deriving DecidableEq, Repr

/-- The block right after power-on reset, before its configuration has been looked at (10_state R59). -/
def State.powerOn (cfg : DeviceConfig) (params : Params) : State where
  cfg := cfg
  params := params
  sh := .reset
  phase := .init
  pending := initEvents params.hdCodes
  status := .ok
  fault := none
  refused := false
  trace := []
  requests := []
  resetIn := false
  draws := 0

/-- A configuration refused at construction: the mark is set and no initialization event is pending (60_exceptions R234, log 7). -/
def State.refusedAtConstruction (s : State) (reason : RefusalReason) : State :=
  { s with pending := [], refused := true, trace := [.refusal reason] }

/-- Construction (60_exceptions R249, R234): a configuration that is refused never starts initialization. -/
def State.construct (cfg : DeviceConfig) (params : Params) : State :=
  match configRefusal cfg with
  | some reason => (State.powerOn cfg params).refusedAtConstruction reason
  | none => State.powerOn cfg params

/-- The machine right after reset, built with the named construction record and the default parameters (log 4, log 5). -/
def State.reset : State := State.construct Config.defaultDevice Config.defaultParams

end Sys2Proof.Machine
end

