-- ==== Sys2Proof/Machine/Flags.lean ====
section
/-! DEFINITION. The block has no flags (10_state R33). Its one result register is `status`: how a transport result sets it, its codes,
and what the host reads. -/

namespace Sys2Proof.Machine

/-- The status code of a transport result (60_exceptions R231). -/
def statusOf : TransportResult → Status
  | .ok => .ok
  | .acquireFail => .acquireFail
  | .targetFail => .targetFail
  | .shortWrite _ => .shortWrite

/-- The number of a status (60_exceptions R231). -/
def statusCode : Status → Nat
  | .ok => 0
  | .acquireFail => 1
  | .targetFail => 2
  | .shortWrite => 3

/-- `status` after a write (10_state R49): under Propagate the first result that is not Ok is kept; under BestEffort nothing is
reported. -/
def statusAfter (policy : FailurePolicy) (status : Status) (result : TransportResult) : Status :=
  match policy, status with
  | .propagate, .ok => statusOf result
  | _, _ => status

/-- What the host reads (60_exceptions R232, R249): nothing under BestEffort; under Propagate, `status` once nothing is pending. -/
def hostReadsStatus (s : State) : Option Status :=
  match s.params.failurePolicy, s.pending with
  | .propagate, [] => some s.status
  | _, _ => none

end Sys2Proof.Machine
end

