-- ==== Sys2Proof/Machine/Ops.lean ====
section
/-! DEFINITION. The named operations on the state: recording, performing a write or a wait, retiring an event, accepting an operation,
raising the fault (the block's one exception; it has no return, 60_exceptions R239), refusing, taking the reset input, and the
host's two actions. -/

namespace Sys2Proof.Machine

/-! ## Transport results -/

/-- The result a draw stands for on a write of `len` bytes: `ShortWrite(k)` only with k < len (20_memory R68). -/
def legalResult (len : Nat) : TransportResult → TransportResult
  | .shortWrite k => if len = 0 then .ok else .shortWrite (k % len)
  | result => result

/-- The bytes that reach the expander (20_memory R69). -/
def delivered (bytes : List Byte) : TransportResult → List Byte
  | .ok => bytes
  | .acquireFail => []
  | .targetFail => []
  | .shortWrite k => bytes.take k

/-! ## Performing events -/

/-- Append an entry to the event trace (00_scope R11). -/
def record (entry : TraceEvent) (s : State) : State := { s with trace := s.trace ++ [entry] }

/-- The transport call of a write, answered with `result` (20_memory R60, R69, 10_state R38, R49): the write goes to the configured
target, its result and delivered bytes are recorded, and only `status` can feel the result. -/
def performTxWith (result : TransportResult) (bytes : List Byte) (s : State) : State :=
  record (.tx s.cfg.busPath s.cfg.targetAddress bytes result (delivered bytes result))
    { s with status := statusAfter s.params.failurePolicy s.status result, draws := s.draws + 1 }

/-- A write answered with the next free value (20_memory R68, log 2). -/
def performTx (bytes : List Byte) (s : State) : State :=
  performTxWith (legalResult bytes.length (Config.transportResult s.draws)) bytes s

/-- A wait that has been sat out, recorded with its minimum (70_reset_and_hazards R275). -/
def performWait (name : WaitName) (s : State) : State :=
  record (.wait name (s.params.minimum name)) { s with draws := s.draws + 1 }

/-- The event at the head is complete: it leaves `pending` (20_memory R76), and when it was the last one of initialization the
block becomes Ready in the same step (42_init_sequencer R172). -/
def retire (s : State) : State :=
  { s with
    pending := s.pending.tail
    phase := if s.pending.tail = [] ∧ s.phase = .init then .ready else s.phase }

/-- The event at the head is not over yet: the block holds at it (20_memory R77, 60_exceptions R246, log 3). -/
def hold (s : State) : State := { s with draws := s.draws + 1 }

/-! ## Marks -/

/-- A block with a fault or a refusal accepts no request and performs no event (60_exceptions R235); any other block answers. -/
def whenLive (s answer : State) : Host.Outcome State Fault Refusal :=
  match s.fault with
  | some reason => .fault (.faulted reason)
  | none => if s.refused then .refused .blockRefused else .next answer

/-- `raise Fault(reason)` (60_exceptions R235): the only writer of `fault`. Nothing is saved and control goes nowhere (R238). -/
def raiseFault (reason : FaultReason) (s : State) : State := record (.fault reason) { s with fault := some reason }

/-- `refuse(reason)` (60_exceptions R234): sets the mark and appends no event. The request stays on the port (log 8). -/
def refuse (reason : RefusalReason) (s : State) : State := record (.refusal reason) { s with refused := true }

/-! ## Accepting an operation -/

/-- The block is idle and unmarked: the only time it accepts a request (60_exceptions R237). -/
def isIdle (s : State) : Bool := s.phase == .ready && s.pending.isEmpty && s.fault.isNone && !s.refused

/-- What an operation's rule gives (00_scope R21): the new shadow and its events, or a fault. -/
inductive OpResult
  | done (sh : Shadow) (events : List Event)
  | raise (reason : FaultReason)
  deriving DecidableEq, Repr

/-- The request at the head of the port is taken and `status` is OK again (10_state R49). -/
def takeRequest (s : State) : State := { s with status := .ok, requests := s.requests.tail }

/-- Acceptance (10_state R48): the operation is evaluated once, under the block's command table and on the current shadow, and its
events become `pending`. -/
def acceptIdle (op : HdCodes → Shadow → OpResult) (s : State) : State :=
  match op s.params.hdCodes s.sh with
  | .done sh events => { takeRequest s with sh := sh, pending := events }
  | .raise reason => raiseFault reason (takeRequest s)

/-- A request: accepted when the block is idle, otherwise held, with nothing changed (60_exceptions R237, log 15). -/
def accept (op : HdCodes → Shadow → OpResult) (s : State) : Host.Outcome State Fault Refusal :=
  whenLive s (if isIdle s then acceptIdle op s else s)

/-- A transport write performed as an instruction (log 10). -/
def performWrite (bytes : List Byte) (s : State) : Host.Outcome State Fault Refusal := whenLive s (performTx bytes s)

/-! ## Reset and the host -/

/-- What reset performs in one step (42_init_sequencer R160, 70_reset_and_hazards R260, R261): `cfg`, `fault` and `refused` stay. -/
def resetBlock (s : State) : State :=
  { s with sh := .reset, phase := .init, status := .ok, pending := initEvents s.params.hdCodes }

/-- The reset input is taken (70_reset_and_hazards R262). -/
def takeReset (s : State) : State := resetBlock { s with resetIn := false }

/-- HOST ACTION: a request byte string is presented on the port, behind those still held (60_exceptions R237, log 8). -/
def presentRequest (bytes : List Byte) (s : State) : State := { s with requests := s.requests ++ [bytes] }

/-- HOST ACTION: the reset input is asserted (70_reset_and_hazards R262, log 13). -/
def assertReset (s : State) : State := { s with resetIn := true }

end Sys2Proof.Machine
end

