-- ==== Sys2Proof/Machine/Command.lean ====
section
/-! DEFINITION. The rows the sequencer performs with a payload: the eight commands and the data write (30_encoding R97 to R105). Each is
the transport write of its burst, with BL as the shadow holds it (log 10). -/

namespace Sys2Proof.Machine

/-- The write of one byte to the instruction register (RS = 0) or the data register (RS = 1), performed now: the six bytes of
41_command_encoder R140. -/
def performBurst (rs : Bool) (value : Byte) (s : State) : Host.Outcome State Fault Refusal :=
  performWrite (burst value rs s.sh.backlightOn) s

/-- The write of a command, under the block's command table (30_encoding R97 to R104). -/
def performCommand (i : Instr) (s : State) : Host.Outcome State Fault Refusal :=
  performBurst false (commandByte s.params.hdCodes i) s

/-- CLEAR_DISPLAY (30_encoding R97). -/
def execCmdClearDisplay (s : State) : Host.Outcome State Fault Refusal :=
  performCommand .cmdClearDisplay s

/-- RETURN_HOME (30_encoding R98). -/
def execCmdReturnHome (x : Bool) (s : State) : Host.Outcome State Fault Refusal :=
  performCommand (.cmdReturnHome x) s

/-- ENTRY_MODE_SET (30_encoding R99). -/
def execCmdEntryModeSet (inc shift : Bool) (s : State) : Host.Outcome State Fault Refusal :=
  performCommand (.cmdEntryModeSet inc shift) s

/-- DISPLAY_CONTROL (30_encoding R100). -/
def execCmdDisplayControl (d c b : Bool) (s : State) : Host.Outcome State Fault Refusal :=
  performCommand (.cmdDisplayControl d c b) s

/-- SHIFT (30_encoding R101). -/
def execCmdShift (display right : Bool) (x : BitVec 2) (s : State) : Host.Outcome State Fault Refusal :=
  performCommand (.cmdShift display right x) s

/-- FUNCTION_SET (30_encoding R102). -/
def execCmdFunctionSet (dl n f : Bool) (x : BitVec 2) (s : State) : Host.Outcome State Fault Refusal :=
  performCommand (.cmdFunctionSet dl n f x) s

/-- SET_CGRAM_ADDRESS (30_encoding R103). -/
def execCmdSetCgramAddress (a : BitVec 6) (s : State) : Host.Outcome State Fault Refusal :=
  performCommand (.cmdSetCgramAddress a) s

/-- SET_DDRAM_ADDRESS (30_encoding R104). -/
def execCmdSetDdramAddress (a : BitVec 7) (s : State) : Host.Outcome State Fault Refusal :=
  performCommand (.cmdSetDdramAddress a) s

/-- DATA_WRITE (30_encoding R105): any byte, unchanged, with RS = 1. -/
def execDataWrite (d : Byte) (s : State) : Host.Outcome State Fault Refusal := performBurst true d s

end Sys2Proof.Machine
end

