-- ==== Sys2Proof/Machine/Control.lean ====
section
/-! DEFINITION. The control operations (44_control_ops R200 to R213): each writes its shadow fields, recombines the whole register group
from the shadow and sends it, whatever the transport answers later. -/

namespace Sys2Proof.Machine

/-- The DISPLAY_CONTROL group of a shadow, resent whole with the toggle wait (44_control_ops, section 1; section 3 for BL). -/
def resendDisplay (codes : HdCodes) (sh : Shadow) : OpResult := .done sh (issue false (displayControlByte codes sh) .tToggle sh)

/-- The SHIFT group of a shadow, resent whole with the toggle wait (44_control_ops, section 2). -/
def resendShift (codes : HdCodes) (sh : Shadow) : OpResult := .done sh (issue false (shiftByte codes sh) .tToggle sh)

/-- The rule of `display_on` (44_control_ops R200). -/
def opDisplayOn (codes : HdCodes) (sh : Shadow) : OpResult := resendDisplay codes { sh with displayOn := true }

/-- The rule of `display_off` (44_control_ops R201). -/
def opDisplayOff (codes : HdCodes) (sh : Shadow) : OpResult := resendDisplay codes { sh with displayOn := false }

/-- The rule of `cursor_on` (44_control_ops R202). -/
def opCursorOn (codes : HdCodes) (sh : Shadow) : OpResult := resendDisplay codes { sh with cursorOn := true }

/-- The rule of `cursor_off` (44_control_ops R203). -/
def opCursorOff (codes : HdCodes) (sh : Shadow) : OpResult := resendDisplay codes { sh with cursorOn := false }

/-- The rule of `blink_on` (44_control_ops R204). -/
def opBlinkOn (codes : HdCodes) (sh : Shadow) : OpResult := resendDisplay codes { sh with blinkOn := true }

/-- The rule of `blink_off` (44_control_ops R205). -/
def opBlinkOff (codes : HdCodes) (sh : Shadow) : OpResult := resendDisplay codes { sh with blinkOn := false }

/-- The rule of `cursor_shift_left` (44_control_ops R206). -/
def opCursorShiftLeft (codes : HdCodes) (sh : Shadow) : OpResult :=
  resendShift codes { sh with shiftScope := .cursor, shiftDirection := .left }

/-- The rule of `cursor_shift_right` (44_control_ops R207). -/
def opCursorShiftRight (codes : HdCodes) (sh : Shadow) : OpResult :=
  resendShift codes { sh with shiftScope := .cursor, shiftDirection := .right }

/-- The rule of `display_shift_left` (44_control_ops R208). -/
def opDisplayShiftLeft (codes : HdCodes) (sh : Shadow) : OpResult :=
  resendShift codes { sh with shiftScope := .display, shiftDirection := .left }

/-- The rule of `display_shift_right` (44_control_ops R209). -/
def opDisplayShiftRight (codes : HdCodes) (sh : Shadow) : OpResult :=
  resendShift codes { sh with shiftScope := .display, shiftDirection := .right }

/-- The rule of `backlight_on` (44_control_ops R210). -/
def opBacklightOn (codes : HdCodes) (sh : Shadow) : OpResult := resendDisplay codes { sh with backlightOn := true }

/-- The rule of `backlight_off` (44_control_ops R211). -/
def opBacklightOff (codes : HdCodes) (sh : Shadow) : OpResult := resendDisplay codes { sh with backlightOn := false }

/-- The rule of `clear_display` (44_control_ops R212): RETURN_HOME, then CLEAR_DISPLAY. -/
def opClearDisplay (codes : HdCodes) (sh : Shadow) : OpResult :=
  .done sh (issue false (returnHomeByte codes) .tClearHome sh ++ issue false (clearDisplayByte codes) .tClearHome sh)

/-- The rule of `return_home` (44_control_ops R213): CLEAR_DISPLAY only, as the source documents (90_conflicts C8). -/
def opReturnHome (codes : HdCodes) (sh : Shadow) : OpResult :=
  .done sh (issue false (clearDisplayByte codes) .tClearHome sh)

/-- display_on (44_control_ops R200). -/
def execDisplayOn (s : State) : Host.Outcome State Fault Refusal := accept opDisplayOn s

/-- display_off (44_control_ops R201). -/
def execDisplayOff (s : State) : Host.Outcome State Fault Refusal := accept opDisplayOff s

/-- cursor_on (44_control_ops R202). -/
def execCursorOn (s : State) : Host.Outcome State Fault Refusal := accept opCursorOn s

/-- cursor_off (44_control_ops R203). -/
def execCursorOff (s : State) : Host.Outcome State Fault Refusal := accept opCursorOff s

/-- blink_on (44_control_ops R204). -/
def execBlinkOn (s : State) : Host.Outcome State Fault Refusal := accept opBlinkOn s

/-- blink_off (44_control_ops R205). -/
def execBlinkOff (s : State) : Host.Outcome State Fault Refusal := accept opBlinkOff s

/-- cursor_shift_left (44_control_ops R206). -/
def execCursorShiftLeft (s : State) : Host.Outcome State Fault Refusal := accept opCursorShiftLeft s

/-- cursor_shift_right (44_control_ops R207). -/
def execCursorShiftRight (s : State) : Host.Outcome State Fault Refusal := accept opCursorShiftRight s

/-- display_shift_left (44_control_ops R208). -/
def execDisplayShiftLeft (s : State) : Host.Outcome State Fault Refusal := accept opDisplayShiftLeft s

/-- display_shift_right (44_control_ops R209). -/
def execDisplayShiftRight (s : State) : Host.Outcome State Fault Refusal := accept opDisplayShiftRight s

/-- backlight_on (44_control_ops R210). -/
def execBacklightOn (s : State) : Host.Outcome State Fault Refusal := accept opBacklightOn s

/-- backlight_off (44_control_ops R211). -/
def execBacklightOff (s : State) : Host.Outcome State Fault Refusal := accept opBacklightOff s

/-- clear_display (44_control_ops R212). -/
def execClearDisplay (s : State) : Host.Outcome State Fault Refusal := accept opClearDisplay s

/-- return_home (44_control_ops R213). -/
def execReturnHome (s : State) : Host.Outcome State Fault Refusal := accept opReturnHome s

end Sys2Proof.Machine
end

