-- ==== Sys2Proof/Machine/Output.lean ====
section
/-! DEFINITION. The output operations (43_output_ops R180 to R184): each operation's rule, and its meaning. None writes the shadow. -/

namespace Sys2Proof.Machine

/-- `write_char b` (43_output_ops R180). -/
def opWriteChar (b : Byte) (_ : HdCodes) (sh : Shadow) : OpResult := .done sh (issue true b .tInstr sh)

/-- `print_string s` (43_output_ops R181): one data write for each byte, in order. -/
def opPrintString (str : List Byte) (_ : HdCodes) (sh : Shadow) : OpResult :=
  .done sh (str.flatMap (fun b => issue true b .tInstr sh))

/-- `set_cursor_position column, line` (43_output_ops R182); a line past the table faults (R183). -/
def opSetCursorPosition (column line : Byte) (codes : HdCodes) (sh : Shadow) : OpResult :=
  match rowOffset line with
  | none => .raise .lineOutOfRange
  | some offset => .done sh (issue false (ddramCommand codes column offset) .tInstr sh)

/-- `load_custom_char cell, bitmap` (43_output_ops R184): the cell's address, then its eight rows unmasked; a cell above 7 is a
silent no-op. -/
def opLoadCustomChar (cell : Byte) (bitmap : Vector Byte 8) (codes : HdCodes) (sh : Shadow) : OpResult :=
  if 7 < cell.toNat then .done sh []
  else .done sh
    (issue false (cgramCommand codes cell) .tInstr sh ++ bitmap.toList.flatMap (fun row => issue true row .tInstr sh))

/-- write_char (43_output_ops R180). -/
def execWriteChar (b : Byte) (s : State) : Host.Outcome State Fault Refusal := accept (opWriteChar b) s

/-- print_string (43_output_ops R181). -/
def execPrintString (str : List Byte) (s : State) : Host.Outcome State Fault Refusal := accept (opPrintString str) s

/-- set_cursor_position (43_output_ops R182, R183). -/
def execSetCursorPosition (column line : Byte) (s : State) : Host.Outcome State Fault Refusal :=
  accept (opSetCursorPosition column line) s

/-- load_custom_char (43_output_ops R184). -/
def execLoadCustomChar (cell : Byte) (bitmap : Vector Byte 8) (s : State) : Host.Outcome State Fault Refusal :=
  accept (opLoadCustomChar cell bitmap) s

end Sys2Proof.Machine
end

