-- ==== Sys2Proof/Machine/Wire.lean ====
section
/-! DEFINITION. The rows the sequencer performs as they stand on the wire: the two initialization nibbles (30_encoding R106), the frame
(R95) and the burst (R96). Each is one transport write (log 10). -/

namespace Sys2Proof.Machine

/-- The write of one nibble to the instruction register, performed now: the three bytes of 40_nibble_framer R132. -/
def performPulse (n : Nibble) (s : State) : Host.Outcome State Fault Refusal := performWrite (frame n false s.sh.backlightOn) s

/-- FORCE8 (30_encoding R106). -/
def execNibbleForce8 (s : State) : Host.Outcome State Fault Refusal := performPulse 0x3 s

/-- MODE4 (30_encoding R106). -/
def execNibbleMode4 (s : State) : Host.Outcome State Fault Refusal := performPulse 0x2 s

/-- frame (30_encoding R95): three bytes with the row's own BL and RS. -/
def execWireFrame (n : Nibble) (bl rs : Bool) (s : State) : Host.Outcome State Fault Refusal := performWrite (frame n rs bl) s

/-- burst (30_encoding R96): six bytes with the row's own BL and RS. -/
def execWireBurst (hi lo : Nibble) (bl rs : Bool) (s : State) : Host.Outcome State Fault Refusal :=
  performWrite (burst (hi ++ lo) rs bl) s

end Sys2Proof.Machine
end

