-- ==== Sys2Proof/Machine/Dispatch.lean ====
section
/-! DEFINITION. The dispatch: one arm for each constructor of Instr, each one call of that instruction's meaning. -/

namespace Sys2Proof.Machine

def exec (i : Instr) (s : State) : Host.Outcome State Fault Refusal :=
  match i with
  | .writeChar b => Sys2Proof.Machine.execWriteChar b s
  | .printString str => Sys2Proof.Machine.execPrintString str s
  | .setCursorPosition column line => Sys2Proof.Machine.execSetCursorPosition column line s
  | .loadCustomChar cell bitmap => Sys2Proof.Machine.execLoadCustomChar cell bitmap s
  | .displayOn => Sys2Proof.Machine.execDisplayOn s
  | .displayOff => Sys2Proof.Machine.execDisplayOff s
  | .cursorOn => Sys2Proof.Machine.execCursorOn s
  | .cursorOff => Sys2Proof.Machine.execCursorOff s
  | .blinkOn => Sys2Proof.Machine.execBlinkOn s
  | .blinkOff => Sys2Proof.Machine.execBlinkOff s
  | .cursorShiftLeft => Sys2Proof.Machine.execCursorShiftLeft s
  | .cursorShiftRight => Sys2Proof.Machine.execCursorShiftRight s
  | .displayShiftLeft => Sys2Proof.Machine.execDisplayShiftLeft s
  | .displayShiftRight => Sys2Proof.Machine.execDisplayShiftRight s
  | .backlightOn => Sys2Proof.Machine.execBacklightOn s
  | .backlightOff => Sys2Proof.Machine.execBacklightOff s
  | .clearDisplay => Sys2Proof.Machine.execClearDisplay s
  | .returnHome => Sys2Proof.Machine.execReturnHome s
  | .cmdClearDisplay => Sys2Proof.Machine.execCmdClearDisplay s
  | .cmdReturnHome x => Sys2Proof.Machine.execCmdReturnHome x s
  | .cmdEntryModeSet inc shift => Sys2Proof.Machine.execCmdEntryModeSet inc shift s
  | .cmdDisplayControl d c b => Sys2Proof.Machine.execCmdDisplayControl d c b s
  | .cmdShift display right x => Sys2Proof.Machine.execCmdShift display right x s
  | .cmdFunctionSet dl n f x => Sys2Proof.Machine.execCmdFunctionSet dl n f x s
  | .cmdSetCgramAddress a => Sys2Proof.Machine.execCmdSetCgramAddress a s
  | .cmdSetDdramAddress a => Sys2Proof.Machine.execCmdSetDdramAddress a s
  | .dataWrite d => Sys2Proof.Machine.execDataWrite d s
  | .nibbleForce8 => Sys2Proof.Machine.execNibbleForce8 s
  | .nibbleMode4 => Sys2Proof.Machine.execNibbleMode4 s
  | .wireFrame n bl rs => Sys2Proof.Machine.execWireFrame n bl rs s
  | .wireBurst hi lo bl rs => Sys2Proof.Machine.execWireBurst hi lo bl rs s

end Sys2Proof.Machine
end

