-- ==== Sys2Proof/Machine/Sequencer.lean ====
section
/-! DEFINITION. What one step does: the next pending event when there is one (20_memory R76), else the reset input, else the request at
the head of the port, else nothing (60_exceptions R237, 70_reset_and_hazards R262). Also where a table word is put so that the
next step runs it. -/

namespace Sys2Proof.Machine

/-- The event at the head, performed. A write is decoded and run as the instruction its bytes carry (30_encoding R115); bytes that
are no frame and no burst, which no run produces, are written as they are (20_memory R60, log 16). -/
def performEvent (event : Event) (s : State) : Host.Outcome State Fault Refusal :=
  match event with
  | .wait name => whenLive s (performWait name s)
  | .tx bytes =>
    match fetchWrite s.params.hdCodes s.sh.backlightOn bytes with
    | some i => exec i s
    | none => performWrite bytes s

/-- The end of a performance step: if the event is over, what performing it gives, with the event retired; if not, the block holds
at it (20_memory R76, R77, R78, log 3). -/
def completeEvent (s : State) (performed : Host.Outcome State Fault Refusal) : Host.Outcome State Fault Refusal :=
  match performed with
  | .next t => .next (if Config.eventEnds s.draws then retire t else hold s)
  | .fault r => .fault r
  | .refused r => .refused r

/-- The request at the head of the port, when the block is idle (30_encoding R110 to R113): run, or refused by its reason. Bytes past
the request's length are not read (log 8). -/
def runRequest (bytes : List Byte) (s : State) : Host.Outcome State Fault Refusal :=
  match decodeRequest bytes with
  | .ok answer => exec answer.1 s
  | .error .reservedRequest => whenLive s (refuse .reservedRequest s)
  | .error _ => whenLive s (refuse .truncatedRequest s)

/-- A block with nothing pending: reset first (70_reset_and_hazards R262), then a waiting request, if the block is Ready
(60_exceptions R237); otherwise it waits for the host (R236). -/
def idleStep (s : State) : Host.Outcome State Fault Refusal :=
  if s.resetIn then whenLive s (takeReset s)
  else
    match s.phase, s.requests with
    | .ready, bytes :: _ => runRequest bytes s
    | _, _ => whenLive s s

/-- One step of the block. -/
def nextStep (s : State) : Host.Outcome State Fault Refusal :=
  match s.fault with
  | some reason => .fault (.faulted reason)
  | none =>
    if s.refused then .refused .blockRefused
    else
      match s.pending with
      | event :: _ => completeEvent s (performEvent event s)
      | [] => idleStep s

/-! ## Where a table word is run from -/

/-- A block without marks, with the write at the head of its pending list: the next step performs it. -/
def placeWrite (bytes : List Byte) (s : State) : State :=
  { s with fault := none, refused := false, pending := .tx bytes :: s.pending }

/-- An idle block with the byte string at the head of its request port and the reset input not asserted: the next step runs it. -/
def placeRequest (bytes : List Byte) (s : State) : State :=
  { s with
    fault := none
    refused := false
    phase := .ready
    pending := []
    resetIn := false
    requests := bytes :: s.requests }

/-- Bytes of a format, put where the next step fetches them: requests on the port, payloads framed as the encoder frames them, with
the shadow's BL, and transport bytes as they stand (log 9). -/
def placeWord (format : Format) (bytes : List Byte) (s : State) : State :=
  match format, bytes with
  | .request, _ => placeRequest bytes s
  | .command, [v] => placeWrite (burst v false s.sh.backlightOn) s
  | .data, [v] => placeWrite (burst v true s.sh.backlightOn) s
  | .nibble, [v] => placeWrite (frame (v.setWidth 4) false s.sh.backlightOn) s
  | _, _ => placeWrite bytes s

end Sys2Proof.Machine
end

