-- ==== Sys2Proof/Machine/Step.lean ====
section
/-! DEFINITION. One step of the machine, and the state in which a given table word is the next thing it runs. -/

namespace Sys2Proof.Machine

/-- One step of the block (Sequencer). -/
def step (s : State) : Host.Outcome State Fault Refusal := nextStep s

/-- `s` with the instruction whose table bits are `w` put where the next step fetches it (log 9). -/
def State.withFetchWord (s : State) (nbits w : Nat) : State :=
  placeWord (tableWord nbits w).1 (tableWord nbits w).2 s

end Sys2Proof.Machine
end

