-- ==== Sys2Proof/Safety.lean ====
section
/-! DEFINITION. The terms claims are stated in: words as the spec draws them, what the block may emit, that a write is followed by its
wait, what a recorded event says, the state an accepted operation, a performed write or a run of pending events leaves, and what a
cut-short write does to the enable line. -/

namespace Sys2Proof

open Machine

/-! ## Words -/

/-- The words of a byte sent with the given BL and RS, from the pattern of 30_encoding R96. -/
def burstWords (bl rs : Bool) (v : Byte) : List Byte :=
  frameWords (v.extractLsb' 4 4) bl rs ++ frameWords (v.extractLsb' 0 4) bl rs

/-- The byte of a command as 30_encoding R97 to R104 draw it, bit by bit; 0 for a row of another format. The standard HD_CODES give these
bytes. -/
def drawnByte : Instr → Byte
  | .cmdClearDisplay => 0b00000001#8
  | .cmdReturnHome x => 0b0000001#7 ++ BitVec.ofBool x
  | .cmdEntryModeSet inc shift => 0b000001#6 ++ bits2 inc shift
  | .cmdDisplayControl d c b => 0b00001#5 ++ BitVec.ofBool d ++ bits2 c b
  | .cmdShift display right x => 0b0001#4 ++ bits2 display right ++ x
  | .cmdFunctionSet dl n f x => 0b001#3 ++ BitVec.ofBool dl ++ bits2 n f ++ x
  | .cmdSetCgramAddress a => 0b01#2 ++ a
  | .cmdSetDdramAddress a => 0b1#1 ++ a
  | .writeChar _ | .printString _ | .setCursorPosition _ _ | .loadCustomChar _ _ => 0
  | .displayOn | .displayOff | .cursorOn | .cursorOff | .blinkOn | .blinkOff => 0
  | .cursorShiftLeft | .cursorShiftRight | .displayShiftLeft | .displayShiftRight => 0
  | .backlightOn | .backlightOff | .clearDisplay | .returnHome => 0
  | .dataWrite _ | .nibbleForce8 | .nibbleMode4 | .wireFrame _ _ _ | .wireBurst _ _ _ _ => 0

/-! ## What the block may emit -/

/-- The rows, with their operands, that the block can ever send (30_encoding R114): don't-care bits 0, ENTRY_MODE_SET only as
0x06, FUNCTION_SET only as 0x28, SET_CGRAM_ADDRESS only at the start of a cell, nibbles 0x3 and 0x2. -/
def Instr.emitted : Instr → Bool
  | .cmdClearDisplay => true
  | .cmdReturnHome x => !x
  | .cmdEntryModeSet inc shift => inc && !shift
  | .cmdDisplayControl _ _ _ => true
  | .cmdShift _ _ x => x == 0
  | .cmdFunctionSet dl n f x => !dl && n && !f && x == 0
  | .cmdSetCgramAddress a => a.extractLsb' 0 3 == 0
  | .cmdSetDdramAddress _ => true
  | .dataWrite _ => true
  | .nibbleForce8 | .nibbleMode4 => true
  | .writeChar _ | .printString _ | .setCursorPosition _ _ | .loadCustomChar _ _ => false
  | .displayOn | .displayOff | .cursorOn | .cursorOff | .blinkOn | .blinkOff => false
  | .cursorShiftLeft | .cursorShiftRight | .displayShiftLeft | .displayShiftRight => false
  | .backlightOn | .backlightOff | .clearDisplay | .returnHome => false
  | .wireFrame _ _ _ | .wireBurst _ _ _ _ => false

/-- The transport bytes of a row of the payload formats, under the command table `codes` and with backlight bit `bl` (30_encoding R95 to
R106); none for a request, and for a wire row its own. -/
def Instr.wireWords (codes : HdCodes) (bl : Bool) (i : Instr) : List Byte :=
  match i.format, encode codes i with
  | .command, [v] => burstWords bl false v
  | .data, [v] => burstWords bl true v
  | .nibble, [v] => frameWords (v.setWidth 4) bl false
  | .wire, bytes => bytes
  | _, _ => []

/-- The words of an emitted row under the command table `codes` and with backlight bit `bl`; of a single frame only where `single` allows
it. -/
def Emittable (codes : HdCodes) (single : Prop) (bl : Bool) (bytes : List Byte) : Prop :=
  ∃ i : Instr, i.emitted = true ∧ i.wireWords codes bl = bytes ∧ (i.format = .nibble → single)

/-- Every pending write is one the block may emit and carries the shadow's backlight bit (30_encoding R93); single frames are
pending only during initialization (R106); and every write on record is one the block may emit. -/
def EmissionInv (s : State) : Prop :=
  (∀ bytes, Event.tx bytes ∈ s.pending → Emittable s.params.hdCodes (s.phase = .init) s.sh.backlightOn bytes) ∧
    ∀ bus address bytes result got, TraceEvent.tx bus address bytes result got ∈ s.trace →
      ∃ bl, Emittable s.params.hdCodes True bl bytes

/-! ## Order of writes and waits -/

/-- The events of a trace, without the marks. -/
def history (trace : List TraceEvent) : List Event :=
  trace.filterMap fun entry =>
    match entry with
    | .tx _ _ bytes _ _ => some (.tx bytes)
    | .wait name _ => some (.wait name)
    | .fault _ => none
    | .refusal _ => none

/-- Every write is directly followed by a wait (41_command_encoder R149). -/
def everyWriteSettles : List Event → Bool
  | .tx _ :: .wait _ :: rest => everyWriteSettles rest
  | .tx _ :: _ => false
  | .wait _ :: rest => everyWriteSettles rest
  | [] => true

/-- What was performed and what is still pending form one list in which every write has its wait. -/
abbrev SettleInv (s : State) : Prop := everyWriteSettles (history s.trace ++ s.pending) = true

/-! ## The shadow, the marks, the record -/

/-- The entry mode the block never changes (10_state R42). -/
abbrev EntryModeFixed (s : State) : Prop := s.sh.entryDirection = .increment ∧ s.sh.entryAutoShift = false

/-- A block with no mark: no fault, no refusal (60_exceptions R235). -/
abbrev Live (s : State) : Prop := s.fault = none ∧ s.refused = false

/-- A recorded event says the truth (00_scope R11, 20_memory R68, R69, 70_reset_and_hazards R275): writes go to the configured
target and deliver the part of their bytes their result names; waits carry their configured minimum. -/
def RecordedRight (s : State) : TraceEvent → Prop
  | .tx bus address bytes result got =>
    bus = s.cfg.busPath ∧ address = s.cfg.targetAddress ∧
      match result with
      | .ok => got = bytes
      | .acquireFail => got = []
      | .targetFail => got = []
      | .shortWrite k => k < bytes.length ∧ got = bytes.take k
  | .wait name minimum => minimum = s.params.minimum name
  | .fault reason => s.fault = some reason
  | .refusal _ => s.refused = true

/-- Every entry of the trace is right. -/
def RecordInv (s : State) : Prop := ∀ entry ∈ s.trace, RecordedRight s entry

/-- During initialization something is pending, unless the configuration was refused (42_init_sequencer R172). -/
abbrev InitInv (s : State) : Prop := s.phase = .init → s.pending = [] → s.refused = true

/-- A faulted block has nothing left to perform (43_output_ops R183, 60_exceptions R233). -/
abbrev FaultInv (s : State) : Prop := s.fault ≠ none → s.pending = []

/-! ## The states instructions leave -/

/-- `issue` (41_command_encoder R149): the write of a byte, in the words of R96, and its settle wait. -/
def issueEvents (bl rs : Bool) (v : Byte) (name : WaitName) : List Event := [.tx (burstWords bl rs v), .wait name]

/-- The idle block accepts `i`: its answer is a next state in which the shadow is `sh`, the events are pending and status is OK, and in
which nothing else has changed; what happens to the port is not said here (10_state R48, R49). -/
def AcceptsWith (i : Instr) (s : State) (sh : Shadow) (events : List Event) : Prop :=
  ∃ t, exec i s = .next t ∧ { t with requests := s.requests } = { s with sh := sh, pending := events, status := .ok }

/-- `s` after the transport call of a write answered `result`: nothing else changes (20_memory R60, R68, R69, 10_state R49). -/
def writtenState (s : State) (bytes : List Byte) (result : TransportResult) : State :=
  { s with
    status := statusAfter s.params.failurePolicy s.status result
    trace := s.trace ++ [.tx s.cfg.busPath s.cfg.targetAddress bytes result (delivered bytes result)]
    draws := s.draws + 1 }

/-- The free result of the write the block makes next (20_memory R68). -/
def nextResult (s : State) (bytes : List Byte) : TransportResult :=
  legalResult bytes.length (Config.transportResult s.draws)

/-! ## Whole operations -/

/-- One event performed and retired, a write answered with the given result. -/
def performAndRetire (result : TransportResult) (event : Event) (s : State) : State :=
  match event with
  | .wait name => retire (performWait name s)
  | .tx bytes => retire (performTxWith result bytes s)

/-- The free result the transport gives if the event is performed next; a wait has none, and Ok stands for it. -/
def answerTo (event : Event) (s : State) : TransportResult :=
  match event with
  | .wait _ => .ok
  | .tx bytes => nextResult s bytes

/-- At most `n` steps of the block, as many as find something pending. -/
def runPending : Nat → State → Host.Outcome State Fault Refusal
  | 0, s => .next s
  | n + 1, s =>
    match s.pending with
    | [] => .next s
    | _ :: _ =>
      match step s with
      | .next t => runPending n t
      | .fault r => .fault r
      | .refused r => .refused r

/-- How many of the `n` free values from index `k` on say that an event is over (20_memory R77, R78; log 3). -/
def endings (k n : Nat) : Nat := ((List.range' k n).filter Config.eventEnds).length

/-- The state an instruction leaves, with its events taken as performed; the state itself where it stops. -/
def afterOperation (s : State) (i : Instr) : State :=
  match exec i s with
  | .next t => { t with pending := [] }
  | .fault _ => s
  | .refused _ => s

/-- The events an instruction makes pending. -/
def afterOperationEvents (s : State) (i : Instr) : List Event :=
  match exec i s with
  | .next t => t.pending
  | .fault _ => []
  | .refused _ => []

/-- The sum of the minimums of the waits of a list of events, in microseconds (70_reset_and_hazards R277). -/
def waitTotal (params : Params) : List Event → Nat
  | .wait name :: rest => params.minimum name + waitTotal params rest
  | .tx _ :: rest => waitTotal params rest
  | [] => 0

/-- How many writes a list of events holds. -/
def writeCount : List Event → Nat
  | .tx _ :: rest => writeCount rest + 1
  | .wait _ :: rest => writeCount rest
  | [] => 0

/-- The length of a request (30_encoding R111, R112): 2 + n for print_string, where n is its count byte (taken as 0 where the string
ends before it); none for a reserved code. -/
def requestLength : List Byte → Option Nat
  | [] => none
  | code :: rest =>
    match code.toNat with
    | 0x01 => some 2
    | 0x02 => some (2 + (rest.headD 0).toNat)
    | 0x03 => some 3
    | 0x04 => some 10
    | n => if 0x10 ≤ n ∧ n ≤ 0x15 ∨ 0x20 ≤ n ∧ n ≤ 0x23 ∨ n = 0x30 ∨ n = 0x31 ∨ n = 0x40 ∨ n = 0x41 then some 1 else none

/-! ## The enable line -/

/-- Falling edges of E in delivered bytes, when E was `e` before them (70_reset_and_hazards R267): each latches one nibble. The level of E
before a write is no state of the block, so it is an argument here (log 17). -/
def fallingEdges (e : Bool) : List Byte → Nat
  | [] => 0
  | b :: rest => (if e && !b.getLsbD 2 then 1 else 0) + fallingEdges (b.getLsbD 2) rest

/-- The nibble pairing is intact when a burst's delivered bytes latched none or both of its nibbles (70_reset_and_hazards R267); `e` is the
level of E before them, of which nothing is assumed (log 17). -/
def pairingKept (e : Bool) (got : List Byte) : Bool := fallingEdges e got % 2 == 0

/-! ## States that differ only where a rule says it does not matter -/

/-- `s` without the failure policy and the status (60_exceptions R232). -/
def withoutPolicy (s : State) : State := { s with status := .ok, params := { s.params with failurePolicy := .bestEffort } }

/-- `s` without the two SHIFT fields of the shadow (10_state R43). -/
def withoutShift (s : State) : State := { s with sh := { s.sh with shiftScope := .cursor, shiftDirection := .left } }

/-- `s` without the display geometry (10_state R35, R36). -/
def withoutGeometry (s : State) : State := { s with cfg := { s.cfg with lines := 0, columns := 0 } }

/-- An outcome with its next state seen through `view`. -/
def viewed (view : State → State) : Host.Outcome State Fault Refusal → Host.Outcome State Fault Refusal
  | .next s => .next (view s)
  | .fault r => .fault r
  | .refused r => .refused r

end Sys2Proof
end

