-- ==== Sys2Proof/Certificates/Slice0/Obligations.lean ====
section
/-! DEFINITION. The statements about the block, from the numbered rules of the spec. Hypotheses are on the state and the operands alone;
a statement about a free value holds for every value it can have. -/

open Sys2Proof Sys2Proof.Machine

/-! ## Encodings -/

/-- Under every command table in which no two commands share a byte, the standard one among them, every well-formed instruction is read back
from its words, in its own format; a request leaves the bytes after it unread (30_encoding R95 to R106, R110 to R112; HD_CODES of
00_scope R14, whose default is the spec's decision D3, log 6). -/
def Obligations.DecodeUndoesEncode : Prop :=
  Config.hdCodes.Unambiguous ∧
  ∀ (codes : HdCodes) (i : Instr), codes.Unambiguous → i.WellFormed →
    (i.format = .request → ∀ rest, decode codes .request (encode codes i ++ rest) = .ok (i, rest)) ∧
    (i.format ≠ .request → decode codes i.format (encode codes i) = .ok (i, []))

/-- Under every command table, what a decoder reads is an instruction of its format whose words are exactly the bytes it read; a request it
reads is well formed (30_encoding R110 to R115). -/
def Obligations.EncodeUndoesDecode : Prop :=
  ∀ (codes : HdCodes) (f : Format) (bytes : List Byte) (i : Instr) (rest : List Byte), decode codes f bytes = .ok (i, rest) →
    i.format = f ∧ encode codes i ++ rest = bytes ∧ (f = .request → i.WellFormed)

/-- Words written out from the spec's vectors, the command bytes under the standard table (95_test_vectors L2-1, L2-3, L2-4, L2-8, P2,
P3). -/
def Obligations.SampleWordsDecode : Prop :=
  decodeRequest [0x01, 0x48] = .ok (.writeChar 0x48, []) ∧
  decodeRequest [0x02, 0x02, 0x48, 0x69] = .ok (.printString [0x48, 0x69], []) ∧
  decodeRequest [0x03, 0x13, 0x03] = .ok (.setCursorPosition 19 3, []) ∧
  decodeRequest [0x12] = .ok (.cursorOn, []) ∧ decodeRequest [0x31] = .ok (.backlightOff, []) ∧
  decodeRequest [0x21] = .ok (.cursorShiftRight, []) ∧ decodeRequest [0x41] = .ok (.returnHome, []) ∧
  decodeCommandByte Config.hdCodes 0x28 = some (.cmdFunctionSet false true false 0) ∧
  decodeCommandByte Config.hdCodes 0x0E = some (.cmdDisplayControl true true false) ∧
  decodeCommandByte Config.hdCodes 0xC5 = some (.cmdSetDdramAddress 0x45) ∧
  decodeWire [0x3C, 0x3C, 0x38] = some (.wireFrame 0x3 true false) ∧
  decodeWire [0x4D, 0x4D, 0x49, 0x8D, 0x8D, 0x89] = some (.wireBurst 0x4 0x8 true true)

/-- An idle block refuses a request with a reserved code and one that ends before its length, each by its name, with no event and no
shadow field changed; every other request is read for exactly its length and run (30_encoding R110 to R113). Two things that the
equalities also say are the model's choice: the refused string stays on the port (log 8), and a refusal is a next state with one
entry on the trace (log 12). The empty string has no code and is not spoken of (log 8). -/
def Obligations.ReservedAndTruncatedRequestsAreRefused : Prop :=
  ∀ (s : State) (bytes : List Byte) (more : List (List Byte)),
    isIdle s = true → s.resetIn = false → s.requests = bytes :: more → bytes ≠ [] →
      (requestLength bytes = none →
        step s = .next { s with refused := true, trace := s.trace ++ [.refusal .reservedRequest] }) ∧
      (∀ n, requestLength bytes = some n → bytes.length < n →
        step s = .next { s with refused := true, trace := s.trace ++ [.refusal .truncatedRequest] }) ∧
      (∀ n, requestLength bytes = some n → n ≤ bytes.length →
        ∃ i rest, decodeRequest bytes = .ok (i, rest) ∧ rest.length + n = bytes.length ∧ step s = exec i s)

/-- The three bytes of a frame carry the nibble, BL and RS, RW is 0, and E is 1, 1, 0; bytes 0 and 1 differ from byte 2 only in E
(40_nibble_framer R135, 30_encoding R94). -/
def Obligations.FrameCarriesItsOperandsAndPulsesEnable : Prop :=
  ∀ (n : Nibble) (rs bl : Bool), ∃ b0 b1 b2, frame n rs bl = [b0, b1, b2] ∧
    (∀ b ∈ [b0, b1, b2], b.extractLsb' 4 4 = n ∧ b.getLsbD 3 = bl ∧ b.getLsbD 1 = false ∧ b.getLsbD 0 = rs) ∧
    b0.getLsbD 2 = true ∧ b1.getLsbD 2 = true ∧ b2.getLsbD 2 = false ∧ b0 = b2 ||| 0x04 ∧ b1 = b2 ||| 0x04

/-- `send_command` makes one write of six bytes: the frame of the high nibble, then the frame of the low nibble, both with the given RS
and the shadow's BL, each pulsing E; the value and RS are read back from it (41_command_encoder R140, R142; 30_encoding R96,
R107, R115). -/
def Obligations.SendCommandIsTwoFramesHighNibbleFirst : Prop :=
  ∀ (rs : Bool) (v : Byte) (sh : Shadow), ∃ bytes, sendCommand rs v sh = .tx bytes ∧ bytes.length = 6 ∧
    bytes.take 3 = frame (v.extractLsb' 4 4) rs sh.backlightOn ∧ bytes.drop 3 = frame (v.extractLsb' 0 4) rs sh.backlightOn ∧
    bytes.map (fun b => b.getLsbD 2) = [true, true, false, true, true, false] ∧
    (bytes.getD 0 0 &&& 0xF0) ||| (bytes.getD 3 0 >>> 4) = v ∧ bytes.getD 0 0 &&& 0x01 = b2i rs

/-- Under the standard command table every command's byte is the one 30_encoding R97 to R104 draw, bit by bit, and only 0x00 is no command's
(decision D3, log 6). -/
def Obligations.StandardTableGivesTheDrawnBytes : Prop :=
  (∀ i : Instr, i.format = .command → commandByte Config.hdCodes i = drawnByte i) ∧
  (∀ v : Byte, decodeCommandByte Config.hdCodes v = none ↔ v = 0x00)

/-- Under every command table a composer gives the group's code with the bits of the operands that the shadow's fields set, the whole group;
under the standard one these are the expressions of 41_command_encoder R144 and R145 (decision D3, log 6). -/
def Obligations.ComposersFollowTheCommandTable : Prop :=
  (∀ (codes : HdCodes) (sh : Shadow),
    displayControlByte codes sh = codes.displayControl ||| (if sh.displayOn = true then codes.displayOn else 0) |||
      (if sh.cursorOn = true then codes.cursorOn else 0) ||| (if sh.blinkOn = true then codes.blinkOn else 0) ∧
    entryModeByte codes sh = codes.entryModeSet ||| (if sh.entryDirection = .increment then codes.entryIncrement else 0) |||
      (if sh.entryAutoShift = true then codes.entryAutoShift else 0) ∧
    shiftByte codes sh = codes.shift ||| (if sh.shiftScope = .display then codes.shiftDisplay else 0) |||
      (if sh.shiftDirection = .right then codes.shiftRight else 0) ∧
    functionSetByte codes = codes.functionSet ||| codes.twoLines ∧
    clearDisplayByte codes = codes.clearDisplay ∧ returnHomeByte codes = codes.returnHome) ∧
  (∀ sh : Shadow,
    displayControlByte Config.hdCodes sh = 0x08 ||| (b2i sh.displayOn <<< 2) ||| (b2i sh.cursorOn <<< 1) ||| b2i sh.blinkOn ∧
    entryModeByte Config.hdCodes sh = 0x04 ||| (b2i (sh.entryDirection == .increment) <<< 1) ||| b2i sh.entryAutoShift ∧
    shiftByte Config.hdCodes sh = 0x10 ||| (b2i (sh.shiftScope == .display) <<< 3) ||| (b2i (sh.shiftDirection == .right) <<< 2)) ∧
  functionSetByte Config.hdCodes = 0x28 ∧ clearDisplayByte Config.hdCodes = 0x01 ∧ returnHomeByte Config.hdCodes = 0x02

/-- The DDRAM command is the byte of `0x80 | (column + ROW_OFFSET[line])`, with the sum taken modulo 128, for the four rows of the
table; the CGRAM command is `0x40 | (cell << 3)` for the eight cells (30_encoding R108, R109; 41_command_encoder R146, R147). Their
codes are in the source and are no part of HD_CODES, so this holds under every command table. -/
def Obligations.AddressCommandsAreTruncatedSums : Prop :=
  (∀ (codes : HdCodes) (column line : Byte), line.toNat ≤ 3 → ∃ offset, rowOffset line = some offset ∧
    offset = [0x00, 0x40, 0x14, 0x54].getD line.toNat 0 ∧
    ddramCommand codes column offset = BitVec.ofNat 8 (0x80 ||| ((column.toNat + offset) % 128)) ∧
    ddramCommand codes column offset = BitVec.ofNat 8 (0x80 ||| (column.toNat + offset))) ∧
  (∀ (codes : HdCodes) (cell : Byte), cell.toNat ≤ 7 → cgramCommand codes cell = BitVec.ofNat 8 (0x40 ||| (cell.toNat <<< 3)))

/-! ## The step -/

/-- An idle block whose port holds a request that decodes runs it (30_encoding R110). A block whose next pending write carries an
instruction runs that, and then, if the transport call has returned, retires the event, else holds at it (20_memory R76, R77). That
the block decodes its own pending write and runs the row it carries is the MODEL'S CHOICE (log 10), no rule of the spec: 20_memory R60
speaks of the write call only, and 30_encoding R115 of a reader of the trace. -/
def Obligations.StepRunsTheDecodedInstruction : Prop :=
  (∀ (s : State) (bytes : List Byte) (more : List (List Byte)) (i : Instr) (rest : List Byte),
    isIdle s = true → s.resetIn = false → s.requests = bytes :: more → decodeRequest bytes = .ok (i, rest) →
      step s = exec i s) ∧
  (∀ (s : State) (bytes : List Byte) (rest : List Event) (i : Instr),
    Live s → s.pending = .tx bytes :: rest → fetchWrite s.params.hdCodes s.sh.backlightOn bytes = some i →
      ∃ t, exec i s = .next t ∧ step s = .next (if Config.eventEnds s.draws then retire t else hold s))

/-- The event at the head of `pending` is performed as it stands there, recorded, and removed once it is over; the last one of
initialization makes the block Ready in the same step; until it is over the block holds at it (20_memory R60, R69, R76 to R78,
42_init_sequencer R172, 70_reset_and_hazards R275). -/
def Obligations.HeadEventIsPerformedRecordedAndRemoved : Prop :=
  ∀ (s : State) (rest : List Event), Live s →
    (∀ name, s.pending = .wait name :: rest →
      step s = .next (if Config.eventEnds s.draws then
        { s with
          pending := rest
          phase := if rest = [] ∧ s.phase = .init then .ready else s.phase
          trace := s.trace ++ [.wait name (s.params.minimum name)]
          draws := s.draws + 1 }
        else { s with draws := s.draws + 1 })) ∧
    (∀ bytes, s.pending = .tx bytes :: rest →
      step s = .next (if Config.eventEnds s.draws then
        { writtenState s bytes (nextResult s bytes) with
          pending := rest
          phase := if rest = [] ∧ s.phase = .init then .ready else s.phase }
        else { s with draws := s.draws + 1 }))

/-- A block with no fault and no refusal, nothing pending, no reset asserted and no request waiting does nothing (60_exceptions
R236). -/
def Obligations.NothingStartsWithoutTheHost : Prop :=
  ∀ s : State, Live s → s.pending = [] → s.resetIn = false → s.requests = [] → step s = .next s

/-- A request run on a block that is not idle is held: nothing changes. No step of a block that is not idle, or whose reset input is
asserted, takes a request from the port (60_exceptions R237, 70_reset_and_hazards R262). -/
def Obligations.RequestsAreHeldUntilIdle : Prop :=
  (∀ (i : Instr) (s : State), i.format = .request → Live s → isIdle s = false → exec i s = .next s) ∧
  (∀ s t : State, step s = .next t → (isIdle s = false ∨ s.resetIn = true) → t.requests = s.requests)

/-- An accepted request leaves the port; that `exec` takes it from there is the model's choice (log 15). -/
def Obligations.AcceptedRequestLeavesThePort : Prop :=
  ∀ (i : Instr) (s : State), i.format = .request → isIdle s = true →
    ∃ t, exec i s = .next t ∧ t.requests = s.requests.tail

/-- With a fault or a refusal recorded, no step and no instruction does anything: each stops, with the mark's name (60_exceptions
R235; how the model stops is its choice, log 11 and log 12). -/
def Obligations.MarkedBlockStops : Prop :=
  ∀ (i : Instr) (s : State),
    (∀ r, s.fault = some r → step s = .fault (.faulted r) ∧ exec i s = .fault (.faulted r)) ∧
    (s.fault = none → s.refused = true → step s = .refused .blockRefused ∧ exec i s = .refused .blockRefused)

/-! ## What each instruction does -/

/-- `frame` and `burst` are one transport write of their words: the write goes to the target, its result is recorded and can reach only
`status`, and nothing else changes (30_encoding R95, R96; 20_memory R60, R68, R69). That a wire row performs its write is the
model's choice (log 10). -/
def Obligations.WireRowsAreOneTransportWrite : Prop :=
  ∀ s : State, Live s →
    (∀ n bl rs, exec (.wireFrame n bl rs) s =
      .next (writtenState s (encode s.params.hdCodes (.wireFrame n bl rs)) (nextResult s (encode s.params.hdCodes (.wireFrame n bl rs))))) ∧
    (∀ hi lo bl rs, exec (.wireBurst hi lo bl rs) s =
      .next (writtenState s (encode s.params.hdCodes (.wireBurst hi lo bl rs)) (nextResult s (encode s.params.hdCodes (.wireBurst hi lo bl rs)))))

/-- A command row writes its command byte, under the block's command table, in a burst with RS = 0, DATA_WRITE its byte in a burst
with RS = 1, FORCE8 and MODE4 their nibble in one frame with RS = 0, all with the shadow's BL; nothing else changes but what a write
changes (30_encoding R92, R93, R97 to R106; log 10). -/
def Obligations.PayloadRowsWriteTheirWords : Prop :=
  ∀ s : State, Live s →
    (∀ i : Instr, i.format = .command →
      exec i s = .next (writtenState s (burstWords s.sh.backlightOn false (commandByte s.params.hdCodes i))
        (nextResult s (burstWords s.sh.backlightOn false (commandByte s.params.hdCodes i))))) ∧
    (∀ d, exec (.dataWrite d) s = .next (writtenState s (burstWords s.sh.backlightOn true d)
        (nextResult s (burstWords s.sh.backlightOn true d)))) ∧
    (exec .nibbleForce8 s = .next (writtenState s (frameWords 0x3 s.sh.backlightOn false)
        (nextResult s (frameWords 0x3 s.sh.backlightOn false)))) ∧
    (exec .nibbleMode4 s = .next (writtenState s (frameWords 0x2 s.sh.backlightOn false)
        (nextResult s (frameWords 0x2 s.sh.backlightOn false))))

/-- `write_char` issues its byte, any byte, to the data register and changes nothing else; `print_string` issues each of its bytes in
order (43_output_ops R180, R181; the wait T_INSTR is the spec's decision D11). -/
def Obligations.CharactersAreIssuedToTheDataRegister : Prop :=
  ∀ s : State, isIdle s = true →
    (∀ b, encode s.params.hdCodes (.writeChar b) = [0x01, b] ∧ AcceptsWith (.writeChar b) s s.sh (issueEvents s.sh.backlightOn true b .tInstr)) ∧
    (∀ str, encode s.params.hdCodes (.printString str) = 0x02 :: BitVec.ofNat 8 str.length :: str ∧
      AcceptsWith (.printString str) s s.sh (str.flatMap (fun b => issueEvents s.sh.backlightOn true b .tInstr)))

/-- `set_cursor_position` with a line of 0 to 3 issues SET_DDRAM_ADDRESS of `(column + ROW_OFFSET[line]) mod 128`, whatever the geometry,
and changes nothing else (43_output_ops R182; decisions D11, D16). -/
def Obligations.CursorPositionIsIssuedAsDdramAddress : Prop :=
  ∀ (column line : Byte) (s : State), isIdle s = true → line.toNat ≤ 3 →
    AcceptsWith (.setCursorPosition column line) s s.sh
      (issueEvents s.sh.backlightOn false
        (commandByte s.params.hdCodes (.cmdSetDdramAddress (BitVec.ofNat 7 (column.toNat + [0x00, 0x40, 0x14, 0x54].getD line.toNat 0)))) .tInstr)

/-- `set_cursor_position` with a line above 3 raises LINE_OUT_OF_RANGE: the fault is set and recorded, no event is pending and no other
field changes but `status` and the port, of which this does not speak (43_output_ops R183, 60_exceptions R233; decision D17,
log 11). -/
def Obligations.LineOutOfRangeRaisesTheFault : Prop :=
  ∀ (column line : Byte) (s : State), isIdle s = true → 3 < line.toNat →
    ∃ t, exec (.setCursorPosition column line) s = .next t ∧ t.fault = some .lineOutOfRange ∧ t.pending = [] ∧
      t.trace = s.trace ++ [.fault .lineOutOfRange] ∧
      { t with fault := s.fault, trace := s.trace, status := s.status, requests := s.requests } = s

/-- `load_custom_char` with a cell of 0 to 7 issues SET_CGRAM_ADDRESS of the cell and then the eight rows, unmasked, to the data register;
a cell above 7 has no events; neither changes anything else (43_output_ops R184; decisions D11, D18, D19). -/
def Obligations.CustomCharIsAnAddressAndEightRows : Prop :=
  ∀ (cell : Byte) (bitmap : Vector Byte 8) (s : State), isIdle s = true →
    (cell.toNat ≤ 7 → AcceptsWith (.loadCustomChar cell bitmap) s s.sh
      (issueEvents s.sh.backlightOn false (commandByte s.params.hdCodes (.cmdSetCgramAddress (BitVec.ofNat 6 (8 * cell.toNat)))) .tInstr ++
        bitmap.toList.flatMap (fun row => issueEvents s.sh.backlightOn true row .tInstr))) ∧
    (7 < cell.toNat → AcceptsWith (.loadCustomChar cell bitmap) s s.sh [])

/-- Each of the six display-group toggles writes its one field, recombines the whole group from the shadow and issues it with T_TOGGLE,
also where the field already had the value; nothing else changes (44_control_ops R200 to R205). -/
def Obligations.DisplayTogglesResendTheWholeGroup : Prop :=
  ∀ s : State, isIdle s = true →
    let toggled := fun (code : Byte) (i : Instr) (sh : Shadow) => encode s.params.hdCodes i = [code] ∧
      AcceptsWith i s sh (issueEvents sh.backlightOn false (displayControlByte s.params.hdCodes sh) .tToggle)
    toggled 0x10 .displayOn { s.sh with displayOn := true } ∧ toggled 0x11 .displayOff { s.sh with displayOn := false } ∧
    toggled 0x12 .cursorOn { s.sh with cursorOn := true } ∧ toggled 0x13 .cursorOff { s.sh with cursorOn := false } ∧
    toggled 0x14 .blinkOn { s.sh with blinkOn := true } ∧ toggled 0x15 .blinkOff { s.sh with blinkOn := false }

/-- Each of the four shift operations writes scope and direction, recombines the SHIFT group and issues it with T_TOGGLE; nothing else
changes (44_control_ops R206 to R209). -/
def Obligations.ShiftsWriteBothFieldsAndResend : Prop :=
  ∀ s : State, isIdle s = true →
    let shifted := fun (code : Byte) (i : Instr) (sh : Shadow) => encode s.params.hdCodes i = [code] ∧
      AcceptsWith i s sh (issueEvents sh.backlightOn false (shiftByte s.params.hdCodes sh) .tToggle)
    shifted 0x20 .cursorShiftLeft { s.sh with shiftScope := .cursor, shiftDirection := .left } ∧
    shifted 0x21 .cursorShiftRight { s.sh with shiftScope := .cursor, shiftDirection := .right } ∧
    shifted 0x22 .displayShiftLeft { s.sh with shiftScope := .display, shiftDirection := .left } ∧
    shifted 0x23 .displayShiftRight { s.sh with shiftScope := .display, shiftDirection := .right }

/-- The backlight operations write the backlight field and resend the DISPLAY_CONTROL group, unchanged, with the new BL already in every
byte; nothing else changes (44_control_ops R210, R211, 41_command_encoder R141; the wait T_TOGGLE is the spec's decision
D12). -/
def Obligations.BacklightTravelsWithItsOwnWrite : Prop :=
  ∀ s : State, isIdle s = true →
    (encode s.params.hdCodes .backlightOn = [0x30] ∧ AcceptsWith .backlightOn s { s.sh with backlightOn := true }
      (issueEvents true false (displayControlByte s.params.hdCodes s.sh) .tToggle)) ∧
    (encode s.params.hdCodes .backlightOff = [0x31] ∧ AcceptsWith .backlightOff s { s.sh with backlightOn := false }
      (issueEvents false false (displayControlByte s.params.hdCodes s.sh) .tToggle))

/-- `clear_display` issues RETURN_HOME and then CLEAR_DISPLAY, each with T_CLEARHOME; no shadow field changes, and nothing else
(44_control_ops R212). -/
def Obligations.ClearDisplayIsHomeThenClear : Prop :=
  ∀ s : State, isIdle s = true → encode s.params.hdCodes .clearDisplay = [0x40] ∧
    AcceptsWith .clearDisplay s s.sh
      (issueEvents s.sh.backlightOn false (commandByte s.params.hdCodes (.cmdReturnHome false)) .tClearHome ++
        issueEvents s.sh.backlightOn false (commandByte s.params.hdCodes .cmdClearDisplay) .tClearHome)

/-- `return_home` issues CLEAR_DISPLAY only, as the source documents, with T_CLEARHOME; nothing else changes (44_control_ops R213;
decisions D13, D30). -/
def Obligations.ReturnHomeSendsClearDisplay : Prop :=
  ∀ s : State, isIdle s = true → encode s.params.hdCodes .returnHome = [0x41] ∧
    AcceptsWith .returnHome s s.sh (issueEvents s.sh.backlightOn false (commandByte s.params.hdCodes .cmdClearDisplay) .tClearHome)

/-- `print_string` over a string has the events of `write_char` of its bytes, in order: one write for each byte (30_encoding R117,
43_output_ops R185). -/
def Obligations.PrintStringIsWriteCharInOrder : Prop :=
  ∀ (str : List Byte) (s : State), isIdle s = true →
    ∃ t, exec (.printString str) s = .next t ∧ writeCount t.pending = str.length ∧ ∃ chars : List State,
      chars.length = str.length ∧
      (∀ (k : Nat) (b : Byte) (u : State), str[k]? = some b → chars[k]? = some u → exec (.writeChar b) s = .next u) ∧
      t.pending = chars.flatMap (fun u => u.pending)

/-! ## Reset and construction -/

/-- The reset input is taken as soon as nothing is pending, before a waiting request, which stays on the port; it restores the shadow,
enters Init, clears `status` and loads INIT_EVENTS, and leaves everything else. While events are pending it is held
(42_init_sequencer R160, 70_reset_and_hazards R260 to R262). -/
def Obligations.ResetIsTakenFirstAndOnlyWhenNothingPends : Prop :=
  (∀ s : State, Live s → s.pending = [] → s.resetIn = true →
    step s = .next { s with
      resetIn := false
      sh := ⟨true, false, false, .increment, false, .cursor, .left, true⟩
      phase := .init
      status := .ok
      pending := initEvents s.params.hdCodes }) ∧
  (∀ s t : State, step s = .next t → s.pending ≠ [] → t.resetIn = s.resetIn)

/-- A block built with a valid configuration has the spec's reset values, SHADOW = 0x94 among them; the machine's reset state is such a
block (10_state R59; its construction record is the model's choice, log 4). -/
def Obligations.ConstructionGivesTheResetValues : Prop :=
  (∀ (cfg : DeviceConfig) (params : Params), (cfg.lines = 1 ∨ cfg.lines = 2 ∨ cfg.lines = 4) → cfg.targetAddress.toNat ≤ 0x7F →
    let s := State.construct cfg params
    s.cfg = cfg ∧ s.params = params ∧ s.sh = ⟨true, false, false, .increment, false, .cursor, .left, true⟩ ∧
      s.sh.pack = 0x94 ∧ s.phase = .init ∧ s.pending = initEvents params.hdCodes ∧ s.status = .ok ∧ s.fault = none ∧ s.refused = false) ∧
  State.reset = State.construct Config.defaultDevice Config.defaultParams ∧ State.reset.sh.pack = 0x94 ∧
  State.reset.pending = initEvents Config.hdCodes ∧ State.reset.refused = false

/-- A configuration with a line count outside 1, 2, 4, or with an address above 0x7F, is refused at construction under its own name and
performs no event of initialization (60_exceptions R234; which is named when both are bad is the model's choice, log 7, and not said
here). -/
def Obligations.BadConfigurationIsRefusedAtConstruction : Prop :=
  ∀ (cfg : DeviceConfig) (params : Params),
    let badLines := cfg.lines ≠ 1 ∧ cfg.lines ≠ 2 ∧ cfg.lines ≠ 4
    let badAddress := 0x7F < cfg.targetAddress.toNat
    let s := State.construct cfg params
    (badLines ∨ badAddress → s.refused = true ∧ s.pending = [] ∧ step s = .refused .blockRefused) ∧
    (badLines → ¬badAddress → s.trace = [.refusal .badConfigLines]) ∧
    (¬badLines → badAddress → s.trace = [.refusal .badConfigAddress])

/-- INIT_EVENTS is the list of 21 events of 42_init_sequencer R169, waits as in 70_reset_and_hazards R276. Under the standard command
table its bytes are those of R169; under any other only the values of the six commands differ. The minimums sum to 35 600 microseconds
under the default parameters (R277). -/
def Obligations.InitEventsAreTheListOfTheSpec : Prop :=
  (∀ codes : HdCodes, initEvents codes =
    [.wait .tPowerOn, .tx [0x3C, 0x3C, 0x38], .wait .tForce, .tx [0x3C, 0x3C, 0x38], .wait .tForce,
      .tx [0x3C, 0x3C, 0x38], .wait .tForce3, .tx [0x2C, 0x2C, 0x28], .wait .tInstr] ++
    issueEvents true false (commandByte codes (.cmdFunctionSet false true false 0)) .tInstr ++
    issueEvents true false (commandByte codes (.cmdDisplayControl true false false)) .tInstr ++
    issueEvents true false (commandByte codes (.cmdEntryModeSet true false)) .tInstr ++
    issueEvents true false (commandByte codes (.cmdShift false false 0)) .tInstr ++
    issueEvents true false (commandByte codes .cmdClearDisplay) .tClearHome ++
    issueEvents true false (commandByte codes (.cmdReturnHome false)) .tClearHome) ∧
  initEvents Config.hdCodes =
    [.wait .tPowerOn, .tx [0x3C, 0x3C, 0x38], .wait .tForce, .tx [0x3C, 0x3C, 0x38], .wait .tForce,
      .tx [0x3C, 0x3C, 0x38], .wait .tForce3, .tx [0x2C, 0x2C, 0x28], .wait .tInstr] ++
    [.tx [0x2C, 0x2C, 0x28, 0x8C, 0x8C, 0x88], .wait .tInstr, .tx [0x0C, 0x0C, 0x08, 0xCC, 0xCC, 0xC8], .wait .tInstr,
      .tx [0x0C, 0x0C, 0x08, 0x6C, 0x6C, 0x68], .wait .tInstr, .tx [0x1C, 0x1C, 0x18, 0x0C, 0x0C, 0x08], .wait .tInstr] ++
    [.tx [0x0C, 0x0C, 0x08, 0x1C, 0x1C, 0x18], .wait .tClearHome, .tx [0x0C, 0x0C, 0x08, 0x2C, 0x2C, 0x28],
      .wait .tClearHome] ∧
  (∀ codes : HdCodes, (initEvents codes).length = 21 ∧ writeCount (initEvents codes) = 10 ∧
    waitTotal Config.defaultParams (initEvents codes) = 35600)

/-- The packed view holds each field at the bit 10_state R40 gives it, and every value of it is a shadow's. -/
def Obligations.PackedShadowIsAFaithfulView : Prop :=
  (∀ sh : Shadow, Shadow.unpack sh.pack = sh ∧ sh.pack.getLsbD 0 = sh.blinkOn ∧ sh.pack.getLsbD 1 = sh.cursorOn ∧
    sh.pack.getLsbD 2 = sh.displayOn ∧ sh.pack.getLsbD 3 = sh.entryAutoShift ∧
    sh.pack.getLsbD 4 = (sh.entryDirection == .increment) ∧ sh.pack.getLsbD 5 = (sh.shiftDirection == .right) ∧
    sh.pack.getLsbD 6 = (sh.shiftScope == .display) ∧ sh.pack.getLsbD 7 = sh.backlightOn) ∧
  (∀ v : Byte, (Shadow.unpack v).pack = v)

/-! ## Whole-machine rules -/

/-- Each shadow field is written by the instructions 10_state R41 lists for it and by no other: on an idle block they leave the value they
are named for; apart from them only the reset input writes the shadow, and it writes every field. -/
def Obligations.ShadowFieldsHaveTheListedWriters : Prop :=
  (∀ (i : Instr) (s t : State), exec i s = .next t →
    (i ≠ .displayOn → i ≠ .displayOff → t.sh.displayOn = s.sh.displayOn) ∧
    (i ≠ .cursorOn → i ≠ .cursorOff → t.sh.cursorOn = s.sh.cursorOn) ∧
    (i ≠ .blinkOn → i ≠ .blinkOff → t.sh.blinkOn = s.sh.blinkOn) ∧
    t.sh.entryDirection = s.sh.entryDirection ∧ t.sh.entryAutoShift = s.sh.entryAutoShift ∧
    (i ≠ .cursorShiftLeft → i ≠ .cursorShiftRight → i ≠ .displayShiftLeft → i ≠ .displayShiftRight →
      t.sh.shiftScope = s.sh.shiftScope ∧ t.sh.shiftDirection = s.sh.shiftDirection) ∧
    (i ≠ .backlightOn → i ≠ .backlightOff → t.sh.backlightOn = s.sh.backlightOn)) ∧
  (∀ s t : State, isIdle s = true →
    (exec .displayOn s = .next t → t.sh.displayOn = true) ∧ (exec .displayOff s = .next t → t.sh.displayOn = false) ∧
    (exec .cursorOn s = .next t → t.sh.cursorOn = true) ∧ (exec .cursorOff s = .next t → t.sh.cursorOn = false) ∧
    (exec .blinkOn s = .next t → t.sh.blinkOn = true) ∧ (exec .blinkOff s = .next t → t.sh.blinkOn = false) ∧
    (exec .cursorShiftLeft s = .next t → t.sh.shiftScope = .cursor ∧ t.sh.shiftDirection = .left) ∧
    (exec .cursorShiftRight s = .next t → t.sh.shiftScope = .cursor ∧ t.sh.shiftDirection = .right) ∧
    (exec .displayShiftLeft s = .next t → t.sh.shiftScope = .display ∧ t.sh.shiftDirection = .left) ∧
    (exec .displayShiftRight s = .next t → t.sh.shiftScope = .display ∧ t.sh.shiftDirection = .right) ∧
    (exec .backlightOn s = .next t → t.sh.backlightOn = true) ∧ (exec .backlightOff s = .next t → t.sh.backlightOn = false)) ∧
  (∀ s : State, Live s → s.pending = [] → s.resetIn = true →
    ∃ t, step s = .next t ∧ t.sh = ⟨true, false, false, .increment, false, .cursor, .left, true⟩) ∧
  (∀ s t : State, step s = .next t → t.sh ≠ s.sh →
    (s.resetIn = true ∧ t.sh = Shadow.reset) ∨ ∃ i, i.format = .request ∧ exec i s = .next t)

/-- No step writes the configuration or the parameters, and the trace only grows, by at most one entry a step (10_state R34, 00_scope
R11). -/
def Obligations.ConfigurationIsNeverWrittenAndTheTraceOnlyGrows : Prop :=
  ∀ s t : State, step s = .next t →
    t.cfg = s.cfg ∧ t.params = s.params ∧ ∃ added : List TraceEvent, added.length ≤ 1 ∧ t.trace = s.trace ++ added

/-- The phase changes in two ways only: from Init to Ready when the last pending event is removed, and to Init when the reset input is
taken (10_state R47, 42_init_sequencer R172, 60_exceptions R241). -/
def Obligations.PhaseChangesOnlyByInitializationAndReset : Prop :=
  ∀ s t : State, step s = .next t → t.phase ≠ s.phase →
    (s.phase = .init ∧ t.phase = .ready ∧ s.pending.length = 1 ∧ t.pending = []) ∨
    (s.phase = .ready ∧ t.phase = .init ∧ s.pending = [] ∧ s.resetIn = true)

/-- `pending` is written in three ways only: a performed event leaves its head, reset loads INIT_EVENTS, an accepted request loads its
events (10_state R48). -/
def Obligations.PendingIsWrittenInThreePlaces : Prop :=
  ∀ s t : State, step s = .next t → t.pending ≠ s.pending →
    (∃ event, s.pending = event :: t.pending) ∨
    (s.pending = [] ∧ s.resetIn = true ∧ t.pending = initEvents s.params.hdCodes) ∨
    (s.pending = [] ∧ isIdle s = true ∧ ∃ i, i.format = .request ∧ exec i s = .next t)

/-- A step of an unmarked block with something pending performs and retires the event at the head, with the answer the transport gives, or
holds at it while it is not over. Whatever that answer is, the same event leaves `pending`, the shadow stays, and no mark is set.
So any number of steps of a block that starts unmarked answers a next state: exactly as many events as the free values end, up to
all that are pending, are performed and recorded in order, the shadow and the marks stay, and the block is Ready once the last
is performed: no failure cuts an operation or the initialization short (20_memory R68, R76; 42_init_sequencer R170, R172, R173;
60_exceptions R230, R235; 10_state R46). That a held step leaves everything but the index of free values is the model's form of
waiting (log 3). -/
def Obligations.EveryPendingEventIsPerformedWhateverTheAnswers : Prop :=
  (∀ (s : State) (event : Event) (rest : List Event), Live s → s.pending = event :: rest →
    step s = .next (if Config.eventEnds s.draws then performAndRetire (answerTo event s) event s else hold s) ∧
    ∀ answer : TransportResult,
      let t := performAndRetire answer event s
      t.pending = rest ∧ t.sh = s.sh ∧ Live t ∧ history t.trace = history s.trace ++ [event] ∧
        t.phase = (if rest = [] then .ready else s.phase)) ∧
  (∀ (n : Nat) (s : State), Live s → ∃ t, runPending n s = .next t ∧
    let performed := min (endings s.draws n) s.pending.length
    t.pending = s.pending.drop performed ∧
      history t.trace = history s.trace ++ s.pending.take performed ∧
      t.sh = s.sh ∧ Live t ∧
      t.phase = (if performed = s.pending.length ∧ s.pending ≠ [] then .ready else s.phase) ∧
      (s.pending.length ≤ endings s.draws n → t.pending = []))

/-- The control operations leave each other's fields alone: a backlight operation sends the D, C and B it found, a display-group toggle sends
every byte with the BL it found, the SHIFT command and the clear and home operations leave the whole shadow, and a shift operation
all of it but its own two fields. In 44_control_ops R215 the word SHIFT is read as the command of 30_encoding R101, because the
operations of R206 to R209 do write scope and direction (log 19). -/
def Obligations.ControlOperationsKeepEachOthersFields : Prop :=
  ∀ s : State, isIdle s = true →
    (∀ i ∈ [Instr.backlightOn, .backlightOff], ∃ t bytes, exec i s = .next t ∧ t.pending = [.tx bytes, .wait .tToggle] ∧
      bytes = burstWords t.sh.backlightOn false (displayControlByte s.params.hdCodes s.sh)) ∧
    (∀ i ∈ [Instr.displayOn, .displayOff, .cursorOn, .cursorOff, .blinkOn, .blinkOff], ∃ t bytes, exec i s = .next t ∧
      t.pending = [.tx bytes, .wait .tToggle] ∧ t.sh.backlightOn = s.sh.backlightOn ∧
      ∀ b ∈ bytes, b.getLsbD 3 = s.sh.backlightOn) ∧
    (∀ i ∈ [Instr.clearDisplay, .returnHome], ∃ t, exec i s = .next t ∧ t.sh = s.sh) ∧
    (∀ (display right : Bool) (x : BitVec 2), ∃ t, exec (.cmdShift display right x) s = .next t ∧ t.sh = s.sh) ∧
    (∀ i ∈ [Instr.cursorShiftLeft, .cursorShiftRight, .displayShiftLeft, .displayShiftRight], ∃ t, exec i s = .next t ∧
      { t.sh with shiftScope := s.sh.shiftScope, shiftDirection := s.sh.shiftDirection } = s.sh)

/-- The display group a toggle sequence leaves does not depend on the order of toggles of different fields: each field holds what the last
toggle of that field wrote, or its earlier value (44_control_ops R214). -/
def Obligations.LastToggleOfEachFieldWins : Prop :=
  ∀ (toggles : List Instr) (s : State), isIdle s = true →
    (∀ i ∈ toggles, i ∈ [Instr.displayOn, .displayOff, .cursorOn, .cursorOff, .blinkOn, .blinkOff]) →
    let last := fun (on off : Instr) (before : Bool) =>
      ((toggles.reverse.find? (fun i => i == on || i == off)).map (fun i => i == on)).getD before
    displayControlByte s.params.hdCodes (toggles.foldl afterOperation s).sh =
      commandByte s.params.hdCodes (.cmdDisplayControl (last .displayOn .displayOff s.sh.displayOn) (last .cursorOn .cursorOff s.sh.cursorOn)
        (last .blinkOn .blinkOff s.sh.blinkOn))

/-! ## Transport results and the failure policy -/

/-- A transport result reaches the trace and `status` and nothing else, and reaches `status` only under Propagate (20_memory R68,
60_exceptions R238, 10_state R49). -/
def Obligations.TransportResultReachesOnlyTraceAndStatus : Prop :=
  ∀ (result : TransportResult) (bytes : List Byte) (s : State),
    let t := performTxWith result bytes s
    { t with status := s.status, trace := s.trace, draws := s.draws } = s ∧
      t.trace = s.trace ++ [.tx s.cfg.busPath s.cfg.targetAddress bytes result (delivered bytes result)] ∧
      (s.params.failurePolicy = .bestEffort → t.status = s.status)

/-- Under Propagate, `status` after any number of writes is the code of the first that failed, OK if none did (10_state R49, 60_exceptions
R231). -/
def Obligations.FirstFailureIsKept : Prop :=
  ∀ results : List TransportResult,
    results.foldl (statusAfter .propagate) .ok =
      ((results.find? (fun r => r != .ok)).map statusOf).getD .ok ∧
    [statusCode .ok, statusCode .acquireFail, statusCode .targetFail, statusCode .shortWrite] = [0, 1, 2, 3]

/-- Under BestEffort `status` stays OK through every step, and the host reads nothing (10_state R49, 44_control_ops R216). -/
def Obligations.BestEffortNeverReports : Prop :=
  (∀ s t : State, step s = .next t → s.params.failurePolicy = .bestEffort → s.status = .ok → t.status = .ok) ∧
  (∀ s : State, s.params.failurePolicy = .bestEffort → hostReadsStatus s = none)

/-- The failure policy changes `status` and nothing else: two blocks that agree but for policy and status take the same step, and agree
again but for policy and status (60_exceptions R232). -/
def Obligations.FailurePolicyChangesOnlyStatus : Prop :=
  ∀ s t : State, withoutPolicy s = withoutPolicy t → viewed withoutPolicy (step s) = viewed withoutPolicy (step t)

/-- No step reads the SHIFT fields of the shadow: two blocks that agree but for them take the same step, and agree again but for them
(10_state R43). -/
def Obligations.ShiftFieldsAffectNoEvent : Prop :=
  ∀ s t : State, withoutShift s = withoutShift t → viewed withoutShift (step s) = viewed withoutShift (step t)

/-- No step reads the line count or the column count (10_state R35, R36, 42_init_sequencer R171). -/
def Obligations.DisplayGeometryIsNeverRead : Prop :=
  ∀ s t : State, withoutGeometry s = withoutGeometry t → viewed withoutGeometry (step s) = viewed withoutGeometry (step t)

/-- What a cut-short write latches, by the length of the delivered part: a burst latches no nibble for 0 to 2 bytes, one for 3 to 5 and both
for 6, so pairing breaks exactly for 3 to 5; a cut-short frame latches none. All of it holds whatever the level of E was before the
write, be it high from an earlier cut-short write or unknown before the first one (70_reset_and_hazards R267, which takes the latch
on the falling edge of E from general knowledge). -/
def Obligations.CutShortBurstsBreakPairingAtThreeToFive : Prop :=
  ∀ (e bl rs : Bool) (v : Byte) (n : Nibble) (k : Nat),
    fallingEdges e ((burstWords bl rs v).take k) = (if k < 3 then 0 else if k < 6 then 1 else 2) ∧
    (pairingKept e ((burstWords bl rs v).take k) = true ↔ (k < 3 ∨ 6 ≤ k)) ∧
    (k < 3 → fallingEdges e ((frameWords n bl rs).take k) = 0)

/-! ## Invariants -/

/-- The invariants below hold in every block just constructed, and in the reset state. -/
def Obligations.InvariantsHoldAfterConstruction : Prop :=
  ∀ (cfg : DeviceConfig) (params : Params) (s : State), s = State.construct cfg params ∨ s = State.reset →
    EmissionInv s ∧ SettleInv s ∧ RecordInv s ∧ EntryModeFixed s ∧ InitInv s ∧ FaultInv s

/-- Every step keeps it, under every command table: all that is ever pending or written is one of the rows of 30_encoding R114 (with
the bytes the table gives them), in well-formed frames and bursts, pending writes carry the shadow's BL (R93), and single frames are
pending only during initialization (R106). -/
def Obligations.OnlyTheListedWritesAreEverEmitted : Prop :=
  ∀ s t : State, EmissionInv s → step s = .next t → EmissionInv t

/-- Under the standard command table the command bytes the block can emit are exactly those 30_encoding R114 lists (decision D3, log 6). -/
def Obligations.EmittedCommandBytesAreTheListOfTheSpec : Prop :=
  ∀ v : Byte, (∃ i : Instr, i.format = .command ∧ i.emitted = true ∧ commandByte Config.hdCodes i = v) ↔
    v ∈ [0x01, 0x02, 0x06, 0x10, 0x14, 0x18, 0x1C, (0x28 : Byte)] ∨ (0x08 ≤ v.toNat ∧ v.toNat ≤ 0x0F) ∨
      (0x40 ≤ v.toNat ∧ v.toNat ≤ 0x78 ∧ v.toNat % 8 = 0) ∨ 0x80 ≤ v.toNat

/-- Every step keeps it: in the events performed and pending, every write is directly followed by its wait (41_command_encoder R149,
70_reset_and_hazards R265, R276). -/
def Obligations.EveryWriteIsFollowedByItsWait : Prop :=
  ∀ s t : State, SettleInv s → step s = .next t → SettleInv t

/-- Every step keeps it: the record is right. Writes go to the configured target and bus, the delivered bytes are the part their result
names, a short write is short, waits carry their minimum, and marks on record are set (00_scope R11, 10_state R37, R38, R53,
20_memory R68, R69). -/
def Obligations.TheRecordStaysRight : Prop :=
  ∀ s t : State, RecordInv s → step s = .next t → RecordInv t

/-- Every step keeps the entry mode at increment without auto-shift (10_state R42). -/
def Obligations.EntryModeNeverChanges : Prop :=
  ∀ s t : State, EntryModeFixed s → step s = .next t → EntryModeFixed t

/-- Every step keeps it: a block in Init has something pending unless it is refused, and a faulted block has nothing pending
(42_init_sequencer R172, 60_exceptions R233). -/
def Obligations.PhaseAndFaultAgreeWithPending : Prop :=
  ∀ s t : State, InitInv s ∧ FaultInv s → step s = .next t → InitInv t ∧ FaultInv t

/-- With parameters inside the bounds of 00_scope R14, every wait on record is at least the minimum of 70_reset_and_hazards R276, and every
step keeps that. -/
def Obligations.RecordedWaitsMeetTheSpecMinimum : Prop :=
  ∀ s : State, s.params.InContract →
    (∀ name, name.lowerBound ≤ s.params.minimum name) ∧
    (RecordInv s → ∀ t, step s = .next t →
      t.params.InContract ∧ ∀ name minimum, TraceEvent.wait name minimum ∈ t.trace → name.lowerBound ≤ minimum)

/-- The sums of minimum waits of the operations under the default wait parameters, whatever the command table, in microseconds
(70_reset_and_hazards R277). -/
def Obligations.MinimumTimesOfOperations : Prop :=
  ∀ s : State, isIdle s = true → { s.params with hdCodes := Config.hdCodes } = Config.defaultParams →
    let time := fun i => waitTotal s.params (afterOperationEvents s i)
    (∀ b, time (.writeChar b) = 100) ∧ (∀ str, time (.printString str) = 100 * str.length) ∧
    (∀ column line : Byte, line.toNat ≤ 3 → time (.setCursorPosition column line) = 100) ∧
    (∀ (cell : Byte) (bitmap : Vector Byte 8), cell.toNat ≤ 7 → time (.loadCustomChar cell bitmap) = 900) ∧
    (∀ i ∈ [Instr.displayOn, .displayOff, .cursorOn, .cursorOff, .blinkOn, .blinkOff, .cursorShiftLeft, .cursorShiftRight,
      .displayShiftLeft, .displayShiftRight, .backlightOn, .backlightOff], time i = 1000) ∧
    time .clearDisplay = 20000 ∧ time .returnHome = 10000
end

