-- ==== Sys2Proof/Laws/State.lean ====
section
/-! SUPPORT. The small lemmas of the state operations: what each one leaves in each field. -/

namespace Sys2Proof.Machine

@[simp] theorem record_cfg (e : TraceEvent) (s : State) : (record e s).cfg = s.cfg := rfl
@[simp] theorem record_params (e : TraceEvent) (s : State) : (record e s).params = s.params := rfl
@[simp] theorem record_sh (e : TraceEvent) (s : State) : (record e s).sh = s.sh := rfl
@[simp] theorem record_phase (e : TraceEvent) (s : State) : (record e s).phase = s.phase := rfl
@[simp] theorem record_pending (e : TraceEvent) (s : State) : (record e s).pending = s.pending := rfl
@[simp] theorem record_status (e : TraceEvent) (s : State) : (record e s).status = s.status := rfl
@[simp] theorem record_fault (e : TraceEvent) (s : State) : (record e s).fault = s.fault := rfl
@[simp] theorem record_refused (e : TraceEvent) (s : State) : (record e s).refused = s.refused := rfl
@[simp] theorem record_trace (e : TraceEvent) (s : State) : (record e s).trace = s.trace ++ [e] := rfl
@[simp] theorem record_requests (e : TraceEvent) (s : State) : (record e s).requests = s.requests := rfl
@[simp] theorem record_resetIn (e : TraceEvent) (s : State) : (record e s).resetIn = s.resetIn := rfl
@[simp] theorem record_draws (e : TraceEvent) (s : State) : (record e s).draws = s.draws := rfl

@[simp] theorem performTxWith_cfg (r : TransportResult) (bytes : List Byte) (s : State) : (performTxWith r bytes s).cfg = s.cfg := rfl
@[simp] theorem performTxWith_params (r : TransportResult) (bytes : List Byte) (s : State) : (performTxWith r bytes s).params = s.params := rfl
@[simp] theorem performTxWith_sh (r : TransportResult) (bytes : List Byte) (s : State) : (performTxWith r bytes s).sh = s.sh := rfl
@[simp] theorem performTxWith_phase (r : TransportResult) (bytes : List Byte) (s : State) : (performTxWith r bytes s).phase = s.phase := rfl
@[simp] theorem performTxWith_pending (r : TransportResult) (bytes : List Byte) (s : State) : (performTxWith r bytes s).pending = s.pending := rfl
@[simp] theorem performTxWith_status (r : TransportResult) (bytes : List Byte) (s : State) : (performTxWith r bytes s).status = statusAfter s.params.failurePolicy s.status r := rfl
@[simp] theorem performTxWith_fault (r : TransportResult) (bytes : List Byte) (s : State) : (performTxWith r bytes s).fault = s.fault := rfl
@[simp] theorem performTxWith_refused (r : TransportResult) (bytes : List Byte) (s : State) : (performTxWith r bytes s).refused = s.refused := rfl
@[simp] theorem performTxWith_trace (r : TransportResult) (bytes : List Byte) (s : State) : (performTxWith r bytes s).trace = s.trace ++ [.tx s.cfg.busPath s.cfg.targetAddress bytes r (delivered bytes r)] := rfl
@[simp] theorem performTxWith_requests (r : TransportResult) (bytes : List Byte) (s : State) : (performTxWith r bytes s).requests = s.requests := rfl
@[simp] theorem performTxWith_resetIn (r : TransportResult) (bytes : List Byte) (s : State) : (performTxWith r bytes s).resetIn = s.resetIn := rfl
@[simp] theorem performTxWith_draws (r : TransportResult) (bytes : List Byte) (s : State) : (performTxWith r bytes s).draws = s.draws + 1 := rfl

@[simp] theorem performTx_cfg (bytes : List Byte) (s : State) : (performTx bytes s).cfg = s.cfg := rfl
@[simp] theorem performTx_params (bytes : List Byte) (s : State) : (performTx bytes s).params = s.params := rfl
@[simp] theorem performTx_sh (bytes : List Byte) (s : State) : (performTx bytes s).sh = s.sh := rfl
@[simp] theorem performTx_phase (bytes : List Byte) (s : State) : (performTx bytes s).phase = s.phase := rfl
@[simp] theorem performTx_pending (bytes : List Byte) (s : State) : (performTx bytes s).pending = s.pending := rfl
@[simp] theorem performTx_status (bytes : List Byte) (s : State) : (performTx bytes s).status = statusAfter s.params.failurePolicy s.status (legalResult bytes.length (Config.transportResult s.draws)) := rfl
@[simp] theorem performTx_fault (bytes : List Byte) (s : State) : (performTx bytes s).fault = s.fault := rfl
@[simp] theorem performTx_refused (bytes : List Byte) (s : State) : (performTx bytes s).refused = s.refused := rfl
@[simp] theorem performTx_trace (bytes : List Byte) (s : State) : (performTx bytes s).trace = s.trace ++
      [.tx s.cfg.busPath s.cfg.targetAddress bytes (legalResult bytes.length (Config.transportResult s.draws))
        (delivered bytes (legalResult bytes.length (Config.transportResult s.draws)))] := rfl
@[simp] theorem performTx_requests (bytes : List Byte) (s : State) : (performTx bytes s).requests = s.requests := rfl
@[simp] theorem performTx_resetIn (bytes : List Byte) (s : State) : (performTx bytes s).resetIn = s.resetIn := rfl
@[simp] theorem performTx_draws (bytes : List Byte) (s : State) : (performTx bytes s).draws = s.draws + 1 := rfl

@[simp] theorem performWait_cfg (name : WaitName) (s : State) : (performWait name s).cfg = s.cfg := rfl
@[simp] theorem performWait_params (name : WaitName) (s : State) : (performWait name s).params = s.params := rfl
@[simp] theorem performWait_sh (name : WaitName) (s : State) : (performWait name s).sh = s.sh := rfl
@[simp] theorem performWait_phase (name : WaitName) (s : State) : (performWait name s).phase = s.phase := rfl
@[simp] theorem performWait_pending (name : WaitName) (s : State) : (performWait name s).pending = s.pending := rfl
@[simp] theorem performWait_status (name : WaitName) (s : State) : (performWait name s).status = s.status := rfl
@[simp] theorem performWait_fault (name : WaitName) (s : State) : (performWait name s).fault = s.fault := rfl
@[simp] theorem performWait_refused (name : WaitName) (s : State) : (performWait name s).refused = s.refused := rfl
@[simp] theorem performWait_trace (name : WaitName) (s : State) : (performWait name s).trace = s.trace ++ [.wait name (s.params.minimum name)] := rfl
@[simp] theorem performWait_requests (name : WaitName) (s : State) : (performWait name s).requests = s.requests := rfl
@[simp] theorem performWait_resetIn (name : WaitName) (s : State) : (performWait name s).resetIn = s.resetIn := rfl
@[simp] theorem performWait_draws (name : WaitName) (s : State) : (performWait name s).draws = s.draws + 1 := rfl

@[simp] theorem retire_cfg (s : State) : (retire s).cfg = s.cfg := rfl
@[simp] theorem retire_params (s : State) : (retire s).params = s.params := rfl
@[simp] theorem retire_sh (s : State) : (retire s).sh = s.sh := rfl
@[simp] theorem retire_phase (s : State) : (retire s).phase = if s.pending.tail = [] ∧ s.phase = .init then .ready else s.phase := rfl
@[simp] theorem retire_pending (s : State) : (retire s).pending = s.pending.tail := rfl
@[simp] theorem retire_status (s : State) : (retire s).status = s.status := rfl
@[simp] theorem retire_fault (s : State) : (retire s).fault = s.fault := rfl
@[simp] theorem retire_refused (s : State) : (retire s).refused = s.refused := rfl
@[simp] theorem retire_trace (s : State) : (retire s).trace = s.trace := rfl
@[simp] theorem retire_requests (s : State) : (retire s).requests = s.requests := rfl
@[simp] theorem retire_resetIn (s : State) : (retire s).resetIn = s.resetIn := rfl
@[simp] theorem retire_draws (s : State) : (retire s).draws = s.draws := rfl

@[simp] theorem hold_cfg (s : State) : (hold s).cfg = s.cfg := rfl
@[simp] theorem hold_params (s : State) : (hold s).params = s.params := rfl
@[simp] theorem hold_sh (s : State) : (hold s).sh = s.sh := rfl
@[simp] theorem hold_phase (s : State) : (hold s).phase = s.phase := rfl
@[simp] theorem hold_pending (s : State) : (hold s).pending = s.pending := rfl
@[simp] theorem hold_status (s : State) : (hold s).status = s.status := rfl
@[simp] theorem hold_fault (s : State) : (hold s).fault = s.fault := rfl
@[simp] theorem hold_refused (s : State) : (hold s).refused = s.refused := rfl
@[simp] theorem hold_trace (s : State) : (hold s).trace = s.trace := rfl
@[simp] theorem hold_requests (s : State) : (hold s).requests = s.requests := rfl
@[simp] theorem hold_resetIn (s : State) : (hold s).resetIn = s.resetIn := rfl
@[simp] theorem hold_draws (s : State) : (hold s).draws = s.draws + 1 := rfl

@[simp] theorem raiseFault_cfg (r : FaultReason) (s : State) : (raiseFault r s).cfg = s.cfg := rfl
@[simp] theorem raiseFault_params (r : FaultReason) (s : State) : (raiseFault r s).params = s.params := rfl
@[simp] theorem raiseFault_sh (r : FaultReason) (s : State) : (raiseFault r s).sh = s.sh := rfl
@[simp] theorem raiseFault_phase (r : FaultReason) (s : State) : (raiseFault r s).phase = s.phase := rfl
@[simp] theorem raiseFault_pending (r : FaultReason) (s : State) : (raiseFault r s).pending = s.pending := rfl
@[simp] theorem raiseFault_status (r : FaultReason) (s : State) : (raiseFault r s).status = s.status := rfl
@[simp] theorem raiseFault_fault (r : FaultReason) (s : State) : (raiseFault r s).fault = some r := rfl
@[simp] theorem raiseFault_refused (r : FaultReason) (s : State) : (raiseFault r s).refused = s.refused := rfl
@[simp] theorem raiseFault_trace (r : FaultReason) (s : State) : (raiseFault r s).trace = s.trace ++ [.fault r] := rfl
@[simp] theorem raiseFault_requests (r : FaultReason) (s : State) : (raiseFault r s).requests = s.requests := rfl
@[simp] theorem raiseFault_resetIn (r : FaultReason) (s : State) : (raiseFault r s).resetIn = s.resetIn := rfl
@[simp] theorem raiseFault_draws (r : FaultReason) (s : State) : (raiseFault r s).draws = s.draws := rfl

@[simp] theorem refuse_cfg (r : RefusalReason) (s : State) : (refuse r s).cfg = s.cfg := rfl
@[simp] theorem refuse_params (r : RefusalReason) (s : State) : (refuse r s).params = s.params := rfl
@[simp] theorem refuse_sh (r : RefusalReason) (s : State) : (refuse r s).sh = s.sh := rfl
@[simp] theorem refuse_phase (r : RefusalReason) (s : State) : (refuse r s).phase = s.phase := rfl
@[simp] theorem refuse_pending (r : RefusalReason) (s : State) : (refuse r s).pending = s.pending := rfl
@[simp] theorem refuse_status (r : RefusalReason) (s : State) : (refuse r s).status = s.status := rfl
@[simp] theorem refuse_fault (r : RefusalReason) (s : State) : (refuse r s).fault = s.fault := rfl
@[simp] theorem refuse_refused (r : RefusalReason) (s : State) : (refuse r s).refused = true := rfl
@[simp] theorem refuse_trace (r : RefusalReason) (s : State) : (refuse r s).trace = s.trace ++ [.refusal r] := rfl
@[simp] theorem refuse_requests (r : RefusalReason) (s : State) : (refuse r s).requests = s.requests := rfl
@[simp] theorem refuse_resetIn (r : RefusalReason) (s : State) : (refuse r s).resetIn = s.resetIn := rfl
@[simp] theorem refuse_draws (r : RefusalReason) (s : State) : (refuse r s).draws = s.draws := rfl

@[simp] theorem takeRequest_cfg (s : State) : (takeRequest s).cfg = s.cfg := rfl
@[simp] theorem takeRequest_params (s : State) : (takeRequest s).params = s.params := rfl
@[simp] theorem takeRequest_sh (s : State) : (takeRequest s).sh = s.sh := rfl
@[simp] theorem takeRequest_phase (s : State) : (takeRequest s).phase = s.phase := rfl
@[simp] theorem takeRequest_pending (s : State) : (takeRequest s).pending = s.pending := rfl
@[simp] theorem takeRequest_status (s : State) : (takeRequest s).status = .ok := rfl
@[simp] theorem takeRequest_fault (s : State) : (takeRequest s).fault = s.fault := rfl
@[simp] theorem takeRequest_refused (s : State) : (takeRequest s).refused = s.refused := rfl
@[simp] theorem takeRequest_trace (s : State) : (takeRequest s).trace = s.trace := rfl
@[simp] theorem takeRequest_requests (s : State) : (takeRequest s).requests = s.requests.tail := rfl
@[simp] theorem takeRequest_resetIn (s : State) : (takeRequest s).resetIn = s.resetIn := rfl
@[simp] theorem takeRequest_draws (s : State) : (takeRequest s).draws = s.draws := rfl

@[simp] theorem resetBlock_cfg (s : State) : (resetBlock s).cfg = s.cfg := rfl
@[simp] theorem resetBlock_params (s : State) : (resetBlock s).params = s.params := rfl
@[simp] theorem resetBlock_sh (s : State) : (resetBlock s).sh = .reset := rfl
@[simp] theorem resetBlock_phase (s : State) : (resetBlock s).phase = .init := rfl
@[simp] theorem resetBlock_pending (s : State) : (resetBlock s).pending = initEvents s.params.hdCodes := rfl
@[simp] theorem resetBlock_status (s : State) : (resetBlock s).status = .ok := rfl
@[simp] theorem resetBlock_fault (s : State) : (resetBlock s).fault = s.fault := rfl
@[simp] theorem resetBlock_refused (s : State) : (resetBlock s).refused = s.refused := rfl
@[simp] theorem resetBlock_trace (s : State) : (resetBlock s).trace = s.trace := rfl
@[simp] theorem resetBlock_requests (s : State) : (resetBlock s).requests = s.requests := rfl
@[simp] theorem resetBlock_resetIn (s : State) : (resetBlock s).resetIn = s.resetIn := rfl
@[simp] theorem resetBlock_draws (s : State) : (resetBlock s).draws = s.draws := rfl

@[simp] theorem takeReset_cfg (s : State) : (takeReset s).cfg = s.cfg := rfl
@[simp] theorem takeReset_params (s : State) : (takeReset s).params = s.params := rfl
@[simp] theorem takeReset_sh (s : State) : (takeReset s).sh = .reset := rfl
@[simp] theorem takeReset_phase (s : State) : (takeReset s).phase = .init := rfl
@[simp] theorem takeReset_pending (s : State) : (takeReset s).pending = initEvents s.params.hdCodes := rfl
@[simp] theorem takeReset_status (s : State) : (takeReset s).status = .ok := rfl
@[simp] theorem takeReset_fault (s : State) : (takeReset s).fault = s.fault := rfl
@[simp] theorem takeReset_refused (s : State) : (takeReset s).refused = s.refused := rfl
@[simp] theorem takeReset_trace (s : State) : (takeReset s).trace = s.trace := rfl
@[simp] theorem takeReset_requests (s : State) : (takeReset s).requests = s.requests := rfl
@[simp] theorem takeReset_resetIn (s : State) : (takeReset s).resetIn = false := rfl
@[simp] theorem takeReset_draws (s : State) : (takeReset s).draws = s.draws := rfl

@[simp] theorem presentRequest_cfg (bytes : List Byte) (s : State) : (presentRequest bytes s).cfg = s.cfg := rfl
@[simp] theorem presentRequest_params (bytes : List Byte) (s : State) : (presentRequest bytes s).params = s.params := rfl
@[simp] theorem presentRequest_sh (bytes : List Byte) (s : State) : (presentRequest bytes s).sh = s.sh := rfl
@[simp] theorem presentRequest_phase (bytes : List Byte) (s : State) : (presentRequest bytes s).phase = s.phase := rfl
@[simp] theorem presentRequest_pending (bytes : List Byte) (s : State) : (presentRequest bytes s).pending = s.pending := rfl
@[simp] theorem presentRequest_status (bytes : List Byte) (s : State) : (presentRequest bytes s).status = s.status := rfl
@[simp] theorem presentRequest_fault (bytes : List Byte) (s : State) : (presentRequest bytes s).fault = s.fault := rfl
@[simp] theorem presentRequest_refused (bytes : List Byte) (s : State) : (presentRequest bytes s).refused = s.refused := rfl
@[simp] theorem presentRequest_trace (bytes : List Byte) (s : State) : (presentRequest bytes s).trace = s.trace := rfl
@[simp] theorem presentRequest_requests (bytes : List Byte) (s : State) : (presentRequest bytes s).requests = s.requests ++ [bytes] := rfl
@[simp] theorem presentRequest_resetIn (bytes : List Byte) (s : State) : (presentRequest bytes s).resetIn = s.resetIn := rfl
@[simp] theorem presentRequest_draws (bytes : List Byte) (s : State) : (presentRequest bytes s).draws = s.draws := rfl

@[simp] theorem assertReset_cfg (s : State) : (assertReset s).cfg = s.cfg := rfl
@[simp] theorem assertReset_params (s : State) : (assertReset s).params = s.params := rfl
@[simp] theorem assertReset_sh (s : State) : (assertReset s).sh = s.sh := rfl
@[simp] theorem assertReset_phase (s : State) : (assertReset s).phase = s.phase := rfl
@[simp] theorem assertReset_pending (s : State) : (assertReset s).pending = s.pending := rfl
@[simp] theorem assertReset_status (s : State) : (assertReset s).status = s.status := rfl
@[simp] theorem assertReset_fault (s : State) : (assertReset s).fault = s.fault := rfl
@[simp] theorem assertReset_refused (s : State) : (assertReset s).refused = s.refused := rfl
@[simp] theorem assertReset_trace (s : State) : (assertReset s).trace = s.trace := rfl
@[simp] theorem assertReset_requests (s : State) : (assertReset s).requests = s.requests := rfl
@[simp] theorem assertReset_resetIn (s : State) : (assertReset s).resetIn = true := rfl
@[simp] theorem assertReset_draws (s : State) : (assertReset s).draws = s.draws := rfl

end Sys2Proof.Machine
end

