-- ==== Sys2Proof/Laws/Ops.lean ====
section
/-! SUPPORT. One lemma for each shared operation that says everything it can answer, the inversion of `exec`, and the small facts about
operands and events the proofs cite. -/

namespace Sys2Proof.Machine

/-! ## Marks and idleness -/

theorem whenLive_eq_next {s a t : State} : whenLive s a = .next t ↔ Live s ∧ t = a := by
  unfold whenLive Live
  split
  · rename_i hf; simp [hf]
  · rename_i hf
    cases hr : s.refused <;> simp [hf, eq_comm]

theorem whenLive_of_live {s : State} (h : Live s) (a : State) : whenLive s a = .next a :=
  whenLive_eq_next.mpr ⟨h, rfl⟩

theorem whenLive_faulted {s : State} {r : FaultReason} (h : s.fault = some r) (a : State) :
    whenLive s a = .fault (.faulted r) := by
  simp [whenLive, h]

theorem whenLive_refused {s : State} (hf : s.fault = none) (hr : s.refused = true) (a : State) :
    whenLive s a = .refused .blockRefused := by
  simp [whenLive, hf, hr]

theorem isIdle_iff {s : State} : isIdle s = true ↔ s.phase = .ready ∧ s.pending = [] ∧ Live s := by
  simp [isIdle, Live, and_assoc]

/-! ## Commands -/

/-- The list of commands is exact. -/
theorem mem_commands {i : Instr} : i ∈ commands ↔ i.format = .command := by
  constructor
  · revert i
    decide +kernel
  · intro h
    cases i with
    | cmdClearDisplay => decide +kernel
    | cmdReturnHome x => revert x; decide +kernel
    | cmdEntryModeSet inc shift => revert inc shift; decide +kernel
    | cmdDisplayControl d c b => revert d c b; decide +kernel
    | cmdShift display right x => revert display right x; decide +kernel
    | cmdFunctionSet dl n f x => revert dl n f x; decide +kernel
    | cmdSetCgramAddress a => revert a; decide +kernel
    | cmdSetDdramAddress a => revert a; decide +kernel
    | _ => simp [Instr.format] at h

/-- A byte is decoded to a command whose byte it is. -/
theorem decodeCommandByte_some {codes : HdCodes} {v : Byte} {i : Instr} (h : decodeCommandByte codes v = some i) :
    i.format = .command ∧ commandByte codes i = v :=
  ⟨mem_commands.mp (List.mem_of_find?_eq_some h), by simpa using List.find?_some h⟩

/-- Where no two commands share a byte, a command's byte is decoded to it. -/
theorem decodeCommandByte_commandByte {codes : HdCodes} (hu : codes.Unambiguous) {i : Instr} (h : i.format = .command) :
    decodeCommandByte codes (commandByte codes i) = some i := by
  have hm := mem_commands.mpr h
  cases hd : decodeCommandByte codes (commandByte codes i) with
  | none => simpa using List.find?_eq_none.mp hd i hm
  | some j =>
    obtain ⟨hj, hv⟩ := decodeCommandByte_some hd
    rw [List.inj_on_of_nodup_map hu (mem_commands.mpr hj) hm hv]

/-! ## Accepting and writing -/

theorem accept_eq_next {op : HdCodes → Shadow → OpResult} {s t : State} :
    accept op s = .next t ↔ Live s ∧ (isIdle s = true ∧ t = acceptIdle op s ∨ isIdle s = false ∧ t = s) := by
  unfold accept
  rw [whenLive_eq_next]
  by_cases h : isIdle s = true <;> simp_all

theorem accept_of_idle {op : HdCodes → Shadow → OpResult} {s : State} (h : isIdle s = true) :
    accept op s = .next (acceptIdle op s) :=
  accept_eq_next.mpr ⟨(isIdle_iff.mp h).2.2, .inl ⟨h, rfl⟩⟩

theorem accept_of_busy {op : HdCodes → Shadow → OpResult} {s : State} (hl : Live s) (h : isIdle s = false) :
    accept op s = .next s :=
  accept_eq_next.mpr ⟨hl, .inr ⟨h, rfl⟩⟩

theorem acceptIdle_done {op : HdCodes → Shadow → OpResult} {s : State} {sh : Shadow} {events : List Event}
    (h : op s.params.hdCodes s.sh = .done sh events) : acceptIdle op s = { takeRequest s with sh := sh, pending := events } := by
  simp [acceptIdle, h]

theorem acceptIdle_raise {op : HdCodes → Shadow → OpResult} {s : State} {r : FaultReason} (h : op s.params.hdCodes s.sh = .raise r) :
    acceptIdle op s = raiseFault r (takeRequest s) := by
  simp [acceptIdle, h]

theorem performWrite_eq_next {bytes : List Byte} {s t : State} :
    performWrite bytes s = .next t ↔ Live s ∧ t = performTx bytes s := whenLive_eq_next

/-! ## What an instruction is made of -/

/-- The rule of a request. -/
def requestOp : Instr → HdCodes → Shadow → OpResult
  | .writeChar b => opWriteChar b
  | .printString str => opPrintString str
  | .setCursorPosition column line => opSetCursorPosition column line
  | .loadCustomChar cell bitmap => opLoadCustomChar cell bitmap
  | .displayOn => opDisplayOn
  | .displayOff => opDisplayOff
  | .cursorOn => opCursorOn
  | .cursorOff => opCursorOff
  | .blinkOn => opBlinkOn
  | .blinkOff => opBlinkOff
  | .cursorShiftLeft => opCursorShiftLeft
  | .cursorShiftRight => opCursorShiftRight
  | .displayShiftLeft => opDisplayShiftLeft
  | .displayShiftRight => opDisplayShiftRight
  | .backlightOn => opBacklightOn
  | .backlightOff => opBacklightOff
  | .clearDisplay => opClearDisplay
  | .returnHome => opReturnHome
  | .cmdClearDisplay | .cmdReturnHome _ | .cmdEntryModeSet _ _ | .cmdDisplayControl _ _ _ => fun _ sh => .done sh []
  | .cmdShift _ _ _ | .cmdFunctionSet _ _ _ _ | .cmdSetCgramAddress _ | .cmdSetDdramAddress _ => fun _ sh => .done sh []
  | .dataWrite _ | .nibbleForce8 | .nibbleMode4 | .wireFrame _ _ _ | .wireBurst _ _ _ _ => fun _ sh => .done sh []

/-- The bytes a row of the other formats writes, given the command table and the shadow's BL. -/
def rowBytes (codes : HdCodes) (bl : Bool) : Instr → List Byte
  | .cmdClearDisplay => burst (commandByte codes .cmdClearDisplay) false bl
  | .cmdReturnHome x => burst (commandByte codes (.cmdReturnHome x)) false bl
  | .cmdEntryModeSet inc shift => burst (commandByte codes (.cmdEntryModeSet inc shift)) false bl
  | .cmdDisplayControl d c b => burst (commandByte codes (.cmdDisplayControl d c b)) false bl
  | .cmdShift display right x => burst (commandByte codes (.cmdShift display right x)) false bl
  | .cmdFunctionSet dl n f x => burst (commandByte codes (.cmdFunctionSet dl n f x)) false bl
  | .cmdSetCgramAddress a => burst (commandByte codes (.cmdSetCgramAddress a)) false bl
  | .cmdSetDdramAddress a => burst (commandByte codes (.cmdSetDdramAddress a)) false bl
  | .dataWrite d => burst d true bl
  | .nibbleForce8 => frame 0x3 false bl
  | .nibbleMode4 => frame 0x2 false bl
  | .wireFrame n l rs => frame n rs l
  | .wireBurst hi lo l rs => burst (hi ++ lo) rs l
  | .writeChar _ | .printString _ | .setCursorPosition _ _ | .loadCustomChar _ _ => []
  | .displayOn | .displayOff | .cursorOn | .cursorOff | .blinkOn | .blinkOff => []
  | .cursorShiftLeft | .cursorShiftRight | .displayShiftLeft | .displayShiftRight => []
  | .backlightOn | .backlightOff | .clearDisplay | .returnHome => []

theorem exec_request {i : Instr} (h : i.format = .request) (s : State) : exec i s = accept (requestOp i) s := by
  cases i <;> first | rfl | simp [Instr.format] at h

theorem exec_write {i : Instr} (h : i.format ≠ .request) (s : State) :
    exec i s = performWrite (rowBytes s.params.hdCodes s.sh.backlightOn i) s := by
  cases i <;> first | rfl | simp [Instr.format] at h

/-- Everything an instruction can answer with a next state: a request is accepted or held, any other row is one write. -/
theorem exec_cases {i : Instr} {s t : State} (h : exec i s = .next t) :
    Live s ∧
      (i.format = .request ∧ isIdle s = true ∧ t = acceptIdle (requestOp i) s ∨
        i.format = .request ∧ isIdle s = false ∧ t = s ∨
        i.format ≠ .request ∧ t = performTx (rowBytes s.params.hdCodes s.sh.backlightOn i) s) := by
  by_cases hf : i.format = .request
  · rw [exec_request hf, accept_eq_next] at h
    obtain ⟨hl, ⟨hi, ht⟩ | ⟨hi, ht⟩⟩ := h
    · exact ⟨hl, .inl ⟨hf, hi, ht⟩⟩
    · exact ⟨hl, .inr (.inl ⟨hf, hi, ht⟩)⟩
  · rw [exec_write hf, performWrite_eq_next] at h
    exact ⟨h.1, .inr (.inr ⟨hf, h.2⟩)⟩

end Sys2Proof.Machine
end

