-- ==== Sys2Proof/Laws/PerInstr.lean ====
section
/-! SUPPORT. A fact of every instruction as syntax: its words, under the standard command table, agree with its row of spec/opcode_table.json on the bits that row fixes. -/

namespace Sys2Proof.Laws.TableRow

/-- The bits a row of the opcode table fixes, byte by byte (its "mask", or the fixed bits of its "encoding"). -/
def fixedBits : Instr → List Byte
  | .cmdClearDisplay => [0xFF]
  | .cmdReturnHome _ => [0xFE]
  | .cmdEntryModeSet _ _ => [0xFC]
  | .cmdDisplayControl _ _ _ => [0xF8]
  | .cmdShift _ _ _ => [0xF0]
  | .cmdFunctionSet _ _ _ _ => [0xE0]
  | .cmdSetCgramAddress _ => [0xC0]
  | .cmdSetDdramAddress _ => [0x80]
  | .dataWrite _ => [0x00]
  | .nibbleForce8 => [0x0F]
  | .nibbleMode4 => [0x0F]
  | .wireFrame _ _ _ => [0x06, 0x06, 0x06]
  | .wireBurst _ _ _ _ => [0x06, 0x06, 0x06, 0x06, 0x06, 0x06]
  | _ => [0xFF]

/-- The values of those bits (its "match", or the fixed bits of its "encoding"). -/
def fixedValues : Instr → List Byte
  | .writeChar _ => [0x01]
  | .printString _ => [0x02]
  | .setCursorPosition _ _ => [0x03]
  | .loadCustomChar _ _ => [0x04]
  | .displayOn => [0x10]
  | .displayOff => [0x11]
  | .cursorOn => [0x12]
  | .cursorOff => [0x13]
  | .blinkOn => [0x14]
  | .blinkOff => [0x15]
  | .cursorShiftLeft => [0x20]
  | .cursorShiftRight => [0x21]
  | .displayShiftLeft => [0x22]
  | .displayShiftRight => [0x23]
  | .backlightOn => [0x30]
  | .backlightOff => [0x31]
  | .clearDisplay => [0x40]
  | .returnHome => [0x41]
  | .cmdClearDisplay => [0x01]
  | .cmdReturnHome _ => [0x02]
  | .cmdEntryModeSet _ _ => [0x04]
  | .cmdDisplayControl _ _ _ => [0x08]
  | .cmdShift _ _ _ => [0x10]
  | .cmdFunctionSet _ _ _ _ => [0x20]
  | .cmdSetCgramAddress _ => [0x40]
  | .cmdSetDdramAddress _ => [0x80]
  | .dataWrite _ => [0x00]
  | .nibbleForce8 => [0x03]
  | .nibbleMode4 => [0x02]
  | .wireFrame _ _ _ => [0x04, 0x04, 0x00]
  | .wireBurst _ _ _ _ => [0x04, 0x04, 0x00, 0x04, 0x04, 0x00]

/-- The words of an instruction, under the standard command table, agree with its table row. -/
def Statement (i : Instr) : Prop := List.zipWith (· &&& ·) (encode Config.hdCodes i) (fixedBits i) = fixedValues i

theorem frameWords_fixed (n : Nibble) (bl rs : Bool) :
    List.zipWith (· &&& ·) (frameWords n bl rs) [0x06, 0x06, 0x06] = [0x04, 0x04, 0x00] := by
  revert n bl rs; decide

theorem writeChar (b : Byte) : Statement (.writeChar b) := rfl
theorem printString (str : List Byte) : Statement (.printString str) := rfl
theorem setCursorPosition (column line : Byte) : Statement (.setCursorPosition column line) := rfl
theorem loadCustomChar (cell : Byte) (bitmap : Vector Byte 8) : Statement (.loadCustomChar cell bitmap) := rfl
theorem displayOn : Statement (.displayOn) := rfl
theorem displayOff : Statement (.displayOff) := rfl
theorem cursorOn : Statement (.cursorOn) := rfl
theorem cursorOff : Statement (.cursorOff) := rfl
theorem blinkOn : Statement (.blinkOn) := rfl
theorem blinkOff : Statement (.blinkOff) := rfl
theorem cursorShiftLeft : Statement (.cursorShiftLeft) := rfl
theorem cursorShiftRight : Statement (.cursorShiftRight) := rfl
theorem displayShiftLeft : Statement (.displayShiftLeft) := rfl
theorem displayShiftRight : Statement (.displayShiftRight) := rfl
theorem backlightOn : Statement (.backlightOn) := rfl
theorem backlightOff : Statement (.backlightOff) := rfl
theorem clearDisplay : Statement (.clearDisplay) := rfl
theorem returnHome : Statement (.returnHome) := rfl
theorem cmdClearDisplay : Statement (.cmdClearDisplay) := rfl
theorem cmdReturnHome (x : Bool) : Statement (.cmdReturnHome x) := by
  unfold Statement; revert x; decide
theorem cmdEntryModeSet (inc shift : Bool) : Statement (.cmdEntryModeSet inc shift) := by
  unfold Statement; revert inc shift; decide
theorem cmdDisplayControl (d c b : Bool) : Statement (.cmdDisplayControl d c b) := by
  unfold Statement; revert d c b; decide
theorem cmdShift (display right : Bool) (x : BitVec 2) : Statement (.cmdShift display right x) := by
  unfold Statement; revert display right x; decide
theorem cmdFunctionSet (dl n f : Bool) (x : BitVec 2) : Statement (.cmdFunctionSet dl n f x) := by
  unfold Statement; revert dl n f x; decide
theorem cmdSetCgramAddress (a : BitVec 6) : Statement (.cmdSetCgramAddress a) := by
  unfold Statement; revert a; decide
theorem cmdSetDdramAddress (a : BitVec 7) : Statement (.cmdSetDdramAddress a) := by
  unfold Statement; revert a; decide
theorem dataWrite (d : Byte) : Statement (.dataWrite d) := by
  unfold Statement; revert d; decide
theorem nibbleForce8 : Statement (.nibbleForce8) := rfl
theorem nibbleMode4 : Statement (.nibbleMode4) := rfl
theorem wireFrame (n : Nibble) (bl rs : Bool) : Statement (.wireFrame n bl rs) := frameWords_fixed n bl rs
theorem wireBurst (hi lo : Nibble) (bl rs : Bool) : Statement (.wireBurst hi lo bl rs) := by
  have h := frameWords_fixed hi bl rs
  have l := frameWords_fixed lo bl rs
  simp only [Statement, encode, fixedBits, fixedValues, frameWords, List.cons_append, List.nil_append, List.zipWith_cons_cons,
    List.zipWith_nil_left, List.cons.injEq, and_true] at h l ⊢
  exact ⟨h.1, h.2.1, h.2.2, l⟩

end Sys2Proof.Laws.TableRow
end

