-- ==== Sys2Proof/Laws/Step.lean ====
section
/-! SUPPORT. What a step can do, said once: its inversion, and its value in each kind of state. -/

namespace Sys2Proof.Machine

theorem step_of_pending {s : State} {event : Event} {rest : List Event} (hl : Live s) (hp : s.pending = event :: rest) :
    step s = completeEvent s (performEvent event s) := by
  simp [step, nextStep, hl.1, hl.2, hp]

theorem step_of_empty {s : State} (hl : Live s) (hp : s.pending = []) : step s = idleStep s := by
  simp [step, nextStep, hl.1, hl.2, hp]

theorem step_of_reset {s : State} (hl : Live s) (hp : s.pending = []) (hr : s.resetIn = true) :
    step s = .next (takeReset s) := by
  rw [step_of_empty hl hp]
  simp [idleStep, hr, whenLive_of_live hl]

theorem step_of_request {s : State} {bytes : List Byte} {more : List (List Byte)} (hi : isIdle s = true)
    (hr : s.resetIn = false) (hq : s.requests = bytes :: more) : step s = runRequest bytes s := by
  obtain ⟨hph, hp, hl⟩ := isIdle_iff.mp hi
  rw [step_of_empty hl hp]
  simp [idleStep, hr, hph, hq]

theorem live_of_step {s t : State} (h : step s = .next t) : Live s := by
  unfold step nextStep at h
  split at h
  · cases h
  · split at h
    · cases h
    · simp_all [Live]

/-- A fetched row is never a request. -/
theorem fetchWrite_format {codes : HdCodes} {bl : Bool} {bytes : List Byte} {i : Instr}
    (h : fetchWrite codes bl bytes = some i) :
    i.format ≠ .request := by
  have command : ∀ (v : Byte) (j : Instr), decodeCommandByte codes v = some j → j.format ≠ .request := by
    intro v j hj
    simp [(decodeCommandByte_some hj).1]
  have nibble : ∀ (n : Nibble) (j : Instr), decodeNibble n = some j → j.format ≠ .request := by
    intro n j hj
    unfold decodeNibble at hj
    split at hj
    · cases hj; simp [Instr.format]
    · split at hj
      · cases hj; simp [Instr.format]
      · cases hj
  unfold fetchWrite at h
  split at h
  · rename_i n l rs _
    split at h
    · cases hn : decodeNibble n with
      | none => simp [hn] at h; subst h; simp [Instr.format]
      | some j => simp [hn] at h; subst h; exact nibble n _ hn
    · cases h; simp [Instr.format]
  · rename_i hi lo l rs _
    split at h
    · split at h
      · cases h; simp [Instr.format]
      · cases hv : decodeCommandByte codes (hi ++ lo) with
        | none => simp [hv] at h; subst h; simp [Instr.format]
        | some j => simp [hv] at h; subst h; exact command _ _ hv
    · cases h; simp [Instr.format]
  · cases h

/-- Performing an event of an unmarked block always answers: a wait is recorded, a write is written. -/
theorem performEvent_live {event : Event} {s : State} (hl : Live s) :
    ∃ t, performEvent event s = .next t ∧
      ((∃ name, event = .wait name ∧ t = performWait name s) ∨
        ∃ bytes written, event = .tx bytes ∧ t = performTx written s) := by
  cases event with
  | wait name => exact ⟨_, whenLive_of_live hl _, .inl ⟨name, rfl, rfl⟩⟩
  | tx bytes =>
    cases hf : fetchWrite s.params.hdCodes s.sh.backlightOn bytes with
    | none =>
      exact ⟨performTx bytes s, by simp [performEvent, hf, performWrite, whenLive_of_live hl], .inr ⟨bytes, bytes, rfl, rfl⟩⟩
    | some i =>
      refine ⟨performTx (rowBytes s.params.hdCodes s.sh.backlightOn i) s, ?_, .inr ⟨bytes, rowBytes s.params.hdCodes s.sh.backlightOn i, rfl, rfl⟩⟩
      simp [performEvent, hf, exec_write (fetchWrite_format hf), performWrite, whenLive_of_live hl]

/-- Everything a step can do: hold at the head event, perform and retire it, take the reset input, wait for the host, run a request,
or refuse one. -/
theorem step_cases {s t : State} (h : step s = .next t) :
    Live s ∧
      ((s.pending ≠ [] ∧ t = hold s) ∨
        (∃ event rest u, s.pending = event :: rest ∧ performEvent event s = .next u ∧ t = retire u) ∨
        (s.pending = [] ∧ s.resetIn = true ∧ t = takeReset s) ∨
        (s.pending = [] ∧ s.resetIn = false ∧ (s.phase = .init ∨ s.requests = []) ∧ t = s) ∨
        (∃ bytes more i rest, isIdle s = true ∧ s.resetIn = false ∧ s.requests = bytes :: more ∧
          decodeRequest bytes = .ok (i, rest) ∧ exec i s = .next t) ∨
        (∃ bytes more reason, isIdle s = true ∧ s.resetIn = false ∧ s.requests = bytes :: more ∧
          t = refuse reason s)) := by
  have hl := live_of_step h
  refine ⟨hl, ?_⟩
  cases hp : s.pending with
  | cons event rest =>
    rw [step_of_pending hl hp] at h
    obtain ⟨u, hu, _⟩ := performEvent_live (event := event) hl
    rw [hu] at h
    simp only [completeEvent, Host.Outcome.next.injEq] at h
    split at h
    · exact .inr (.inl ⟨event, rest, u, rfl, hu, h.symm⟩)
    · exact .inl ⟨by simp, h.symm⟩
  | nil =>
    rw [step_of_empty hl hp] at h
    unfold idleStep at h
    split at h
    · rename_i hr
      exact .inr (.inr (.inl ⟨rfl, hr, (whenLive_eq_next.mp h).2⟩))
    · rename_i hr
      have hr : s.resetIn = false := by simpa using hr
      split at h
      · rename_i bytes more hph hq
        have hi : isIdle s = true := isIdle_iff.mpr ⟨hph, hp, hl⟩
        unfold runRequest at h
        split at h
        · rename_i answer hd
          exact .inr (.inr (.inr (.inr (.inl ⟨bytes, more, answer.1, answer.2, hi, hr, hq, hd, h⟩))))
        · exact .inr (.inr (.inr (.inr (.inr ⟨bytes, more, _, hi, hr, hq, (whenLive_eq_next.mp h).2⟩))))
        · exact .inr (.inr (.inr (.inr (.inr ⟨bytes, more, _, hi, hr, hq, (whenLive_eq_next.mp h).2⟩))))
      · rename_i hno
        refine .inr (.inr (.inr (.inl ⟨rfl, hr, ?_, (whenLive_eq_next.mp h).2⟩)))
        cases hph : s.phase with
        | init => exact .inl rfl
        | ready =>
          cases hq : s.requests with
          | nil => exact .inr rfl
          | cons b m => exact absurd hq (hno b m hph)

end Sys2Proof.Machine
end

