-- ==== Sys2Proof/Tests/Slice0.lean ====
section
/-! SUPPORT. Small tests with expected results from the spec (its encodings and 95_test_vectors), and for every statement with hypotheses a
concrete state and operands that meet them. -/

open Sys2Proof Sys2Proof.Machine

namespace Sys2Proof.Tests

/-! ## States -/

/-- The end state of initialization (95_test_vectors L2-3), with nothing on record. -/
def readyState : State := { State.reset with phase := .ready, pending := [] }

/-- `readyState` with another shadow. -/
def readyWith (sh : Shadow) : State := { readyState with sh := sh }

/-- `readyState` with a request on the port. -/
def readyAsked (bytes : List Byte) : State := { readyState with requests := [bytes] }

/-- `readyState` under Propagate. -/
def readyPropagate : State := { readyState with params := { Config.defaultParams with failurePolicy := .propagate } }

/-- `readyState` with its fault set. -/
def faultedState : State := { readyState with fault := some .lineOutOfRange }

/-- `readyState` with its refusal mark set. -/
def refusedState : State := { readyState with refused := true }

/-- One of these events is pending in a Ready block. -/
def busyWith (events : List Event) : State := { readyState with pending := events }

/-- The last event of initialization is pending. -/
def lastInitWait : State := { State.reset with pending := [.wait .tClearHome] }

/-- The next state of an outcome. -/
def nextOf : Host.Outcome State Fault Refusal → Option State
  | .next t => some t
  | .fault _ => none
  | .refused _ => none

/-- The fault of an outcome. -/
def faultOf : Host.Outcome State Fault Refusal → Option Fault
  | .next _ => none
  | .fault r => some r
  | .refused _ => none

/-- The shadow and the pending events an instruction leaves, if it answers a next state. -/
def leaves (i : Instr) (s : State) : Option (Byte × List Event) := (nextOf (exec i s)).map fun t => (t.sh.pack, t.pending)

/-- The bytes of a write on record. -/
def recordedBytes : TraceEvent → List Byte
  | .tx _ _ bytes _ _ => bytes
  | .wait _ _ => []
  | .fault _ => []
  | .refusal _ => []

/-- The bytes of the writes on record after an instruction, whatever the transport answers. -/
def writes (i : Instr) (s : State) : Option (List (List Byte)) := (nextOf (exec i s)).map fun t => t.trace.map recordedBytes

/-! ## WellFormed refuses an ill-formed term for each of its checks -/

theorem test_wf_print_string_longest : (Instr.printString (List.replicate 255 0)).WellFormed := by decide +kernel
theorem test_wf_print_string_too_long : ¬(Instr.printString (List.replicate 256 0)).WellFormed := by decide +kernel
theorem test_wf_return_home_bit : ¬(Instr.cmdReturnHome true).WellFormed := by decide
theorem test_wf_shift_bits : ¬(Instr.cmdShift true false 1).WellFormed := by decide
theorem test_wf_function_set_bits : ¬(Instr.cmdFunctionSet false true false 2).WellFormed := by decide

/-! ## Decoding: a word for every constructor, from 30_encoding R95 to R112 -/

theorem test_decode_write_char : decodeRequest [0x01, 0xFF] = .ok (.writeChar 0xFF, []) := by decide
theorem test_decode_print_string :
    decodeRequest [0x02, 0x02, 0x00, 0x41, 0x99] = .ok (.printString [0x00, 0x41], [0x99]) := by decide
theorem test_decode_print_string_empty : decodeRequest [0x02, 0x00] = .ok (.printString [], []) := by decide
theorem test_decode_set_cursor_position :
    decodeRequest [0x03, 0x05, 0x01] = .ok (.setCursorPosition 0x05 0x01, []) := by decide
theorem test_decode_load_custom_char :
    decodeRequest [0x04, 0x03, 0x00, 0x0A, 0x1F, 0x1E, 0x0E, 0x04, 0x02, 0x01] =
      .ok (.loadCustomChar 0x03 #v[0x00, 0x0A, 0x1F, 0x1E, 0x0E, 0x04, 0x02, 0x01], []) := by decide
theorem test_decode_display_on : decodeRequest [0x10] = .ok (.displayOn, []) := by decide
theorem test_decode_display_off : decodeRequest [0x11] = .ok (.displayOff, []) := by decide
theorem test_decode_cursor_on : decodeRequest [0x12] = .ok (.cursorOn, []) := by decide
theorem test_decode_cursor_off : decodeRequest [0x13] = .ok (.cursorOff, []) := by decide
theorem test_decode_blink_on : decodeRequest [0x14] = .ok (.blinkOn, []) := by decide
theorem test_decode_blink_off : decodeRequest [0x15] = .ok (.blinkOff, []) := by decide
theorem test_decode_cursor_shift_left : decodeRequest [0x20] = .ok (.cursorShiftLeft, []) := by decide
theorem test_decode_cursor_shift_right : decodeRequest [0x21] = .ok (.cursorShiftRight, []) := by decide
theorem test_decode_display_shift_left : decodeRequest [0x22] = .ok (.displayShiftLeft, []) := by decide
theorem test_decode_display_shift_right : decodeRequest [0x23] = .ok (.displayShiftRight, []) := by decide
theorem test_decode_backlight_on : decodeRequest [0x30] = .ok (.backlightOn, []) := by decide
theorem test_decode_backlight_off : decodeRequest [0x31] = .ok (.backlightOff, []) := by decide
theorem test_decode_clear_display : decodeRequest [0x40] = .ok (.clearDisplay, []) := by decide
theorem test_decode_return_home : decodeRequest [0x41] = .ok (.returnHome, []) := by decide

/-- The bits are written as 30_encoding R97 to R104 draws them. -/
theorem test_decode_CLEAR_DISPLAY : decodeCommandByte Config.hdCodes 0b00000001 = some .cmdClearDisplay := by decide
theorem test_decode_RETURN_HOME : decodeCommandByte Config.hdCodes 0b00000010 = some (.cmdReturnHome false) := by decide
theorem test_decode_ENTRY_MODE_SET : decodeCommandByte Config.hdCodes 0b00000110 = some (.cmdEntryModeSet true false) := by decide
theorem test_decode_DISPLAY_CONTROL : decodeCommandByte Config.hdCodes 0b00001100 = some (.cmdDisplayControl true false false) := by decide
theorem test_decode_SHIFT : decodeCommandByte Config.hdCodes 0b00010100 = some (.cmdShift false true 0) := by decide
theorem test_decode_FUNCTION_SET : decodeCommandByte Config.hdCodes 0b00101000 = some (.cmdFunctionSet false true false 0) := by decide
theorem test_decode_SET_CGRAM_ADDRESS : decodeCommandByte Config.hdCodes 0b01011000 = some (.cmdSetCgramAddress 0b011000) := by decide
theorem test_decode_SET_DDRAM_ADDRESS : decodeCommandByte Config.hdCodes 0b11000101 = some (.cmdSetDdramAddress 0b1000101) := by decide
theorem test_decode_DATA_WRITE : decode Config.hdCodes .data [0b01000001] = .ok (.dataWrite 0x41, []) := by decide
theorem test_decode_FORCE8 : decode Config.hdCodes .nibble [0b0011] = .ok (.nibbleForce8, []) := by decide
theorem test_decode_MODE4 : decode Config.hdCodes .nibble [0b0010] = .ok (.nibbleMode4, []) := by decide
theorem test_decode_frame : decodeWire [0b10101101, 0b10101101, 0b10101001] = some (.wireFrame 0xA true true) := by decide
theorem test_decode_burst :
    decodeWire [0b01010101, 0b01010101, 0b01010001, 0b10100101, 0b10100101, 0b10100001] =
      some (.wireBurst 0x5 0xA false true) := by decide

/-! ## What the decoders refuse -/

/-- 95_test_vectors L2-9. -/
theorem test_reserved_requests : ∀ code ∈ [0x00, 0x05, 0x16, 0x1F, 0x24, 0x32, 0x42, (0xFF : Byte)],
    decodeRequest [code] = .error .reservedRequest := by decide
theorem test_truncated_requests :
    ∀ bytes ∈ [[0x01], [0x03, 0x05], [0x02, 0x03, 0x41, 0x42], [0x04, 0x03, 0x00, 0x0A, (0x1F : Byte)]],
      decodeRequest bytes = .error .truncatedRequest := by decide
theorem test_reserved_command : decode Config.hdCodes .command [0x00] = .error .reservedCommand := by decide
theorem test_reserved_nibble : decode Config.hdCodes .nibble [0x04] = .error .reservedNibble := by decide
/-- RW set, E stuck, and two frames that disagree on BL are no writes of the block (30_encoding R94, R142). -/
theorem test_malformed_writes :
    ∀ bytes ∈ [[0x3E, 0x3E, 0x3A], [0x3C, 0x3C, 0x3C], [0x3C, 0x38, 0x38], [0x3C, 0x3C, 0x38, 0x34, 0x34, (0x30 : Byte)]],
      decode Config.hdCodes .wire bytes = .error .malformedWrite := by decide
/-- No two commands share a byte, and no two request rows a code. -/
theorem test_command_bytes_distinct : Config.hdCodes.Unambiguous := by decide +kernel
theorem test_request_codes_distinct : (requestRows.map (fun row => row.code)).Nodup := by decide
/-- A fetched write is read down to its payload only with the shadow's BL (30_encoding R115, log 10). -/
theorem test_fetch_write :
    fetchWrite Config.hdCodes true [0x0C, 0x0C, 0x08, 0xCC, 0xCC, 0xC8] = some (.cmdDisplayControl true false false) ∧
    fetchWrite Config.hdCodes false [0x0C, 0x0C, 0x08, 0xCC, 0xCC, 0xC8] = some (.wireBurst 0x0 0xC true false) ∧
    fetchWrite Config.hdCodes true [0x3C, 0x3C, 0x38] = some .nibbleForce8 ∧ fetchWrite Config.hdCodes true [0x0C, 0x0C] = none := by decide

/-! ## Words of bits, as the opcode table numbers them -/

theorem test_table_words :
    decodeTableWord 8 0x12 = some .cursorOn ∧ decodeTableWord 8 0x0E = some (.cmdDisplayControl true true false) ∧
    decodeTableWord 16 0x4801 = some (.writeChar 0x48) ∧ decodeTableWord 4 0x2 = some .nibbleMode4 ∧
    decodeTableWord 24 0x3C3C38 = some (.wireFrame 0x3 true false) := by decide +kernel
theorem test_with_fetch_word_request :
    nextOf (step (State.reset.withFetchWord 8 0x12)) = nextOf (exec .cursorOn (State.reset.withFetchWord 8 0x12)) := by
  decide +kernel
theorem test_with_fetch_word_write : (State.reset.withFetchWord 48 0x0C0C081C1C18).pending.head? =
    some (.tx [0x0C, 0x0C, 0x08, 0x1C, 0x1C, 0x18]) := by decide +kernel

/-! ## Operands: 95_test_vectors L2-1, L2-2, L2-4, L2-5 -/

theorem test_frames : frame 0x0 false false = [0x04, 0x04, 0x00] ∧ frame 0x3 false true = [0x3C, 0x3C, 0x38] ∧
    frame 0xA true false = [0xA5, 0xA5, 0xA1] ∧ frame 0xF true true = [0xFD, 0xFD, 0xF9] := by decide
theorem test_bursts : burst 0xA5 false true = [0xAC, 0xAC, 0xA8, 0x5C, 0x5C, 0x58] ∧
    burst 0x5A true false = [0x55, 0x55, 0x51, 0xA5, 0xA5, 0xA1] := by decide
theorem test_ddram_commands : (rowOffset 1).map (ddramCommand Config.hdCodes 5) = some 0xC5 ∧ (rowOffset 3).map (ddramCommand Config.hdCodes 0x2C) = some 0x80 ∧
    (rowOffset 3).map (ddramCommand Config.hdCodes 255) = some 0xD3 ∧ rowOffset 4 = none := by decide
theorem test_cgram_commands : cgramCommand Config.hdCodes 0 = 0x40 ∧ cgramCommand Config.hdCodes 3 = 0x58 ∧ cgramCommand Config.hdCodes 7 = 0x78 := by decide
theorem test_packed_reset_shadow : Shadow.reset.pack = 0x94 := by decide

/-! ## Requests: what each leaves (95_test_vectors L2-4 to L2-8) -/

theorem test_write_char : leaves (.writeChar 0x48) readyState =
    some (0x94, [.tx [0x4D, 0x4D, 0x49, 0x8D, 0x8D, 0x89], .wait .tInstr]) := by decide
theorem test_print_string : leaves (.printString [0x00, 0x41]) readyState =
    some (0x94, [.tx [0x0D, 0x0D, 0x09, 0x0D, 0x0D, 0x09], .wait .tInstr, .tx [0x4D, 0x4D, 0x49, 0x1D, 0x1D, 0x19], .wait .tInstr]) := by
  decide
theorem test_print_string_empty : leaves (.printString []) readyState = some (0x94, []) := by decide
theorem test_set_cursor_position : leaves (.setCursorPosition 19 3) readyState =
    some (0x94, [.tx [0xEC, 0xEC, 0xE8, 0x7C, 0x7C, 0x78], .wait .tInstr]) := by decide
theorem test_load_custom_char :
    (leaves (.loadCustomChar 3 #v[0, 0x0A, 0x1F, 0x1F, 0x0E, 0x04, 0, 0xE0]) readyState).map (fun a => (a.1, a.2.length, a.2.take 4)) =
      some (0x94, 18, [.tx [0x5C, 0x5C, 0x58, 0x8C, 0x8C, 0x88], .wait .tInstr, .tx [0x0D, 0x0D, 0x09, 0x0D, 0x0D, 0x09], .wait .tInstr])
    := by decide
theorem test_load_custom_char_past_last : leaves (.loadCustomChar 8 #v[0, 1, 2, 3, 4, 5, 6, 7]) readyState = some (0x94, []) := by
  decide
theorem test_display_on : leaves .displayOn readyState = some (0x94, [.tx [0x0C, 0x0C, 0x08, 0xCC, 0xCC, 0xC8], .wait .tToggle]) := by
  decide
/-- 95_test_vectors P2: display_on restores the cursor and blink bits. -/
theorem test_display_on_restores : leaves .displayOn (readyWith (Shadow.unpack 0x13)) =
    some (0x17, [.tx [0x04, 0x04, 0x00, 0xF4, 0xF4, 0xF0], .wait .tToggle]) := by decide
theorem test_display_off : leaves .displayOff readyState = some (0x90, [.tx [0x0C, 0x0C, 0x08, 0x8C, 0x8C, 0x88], .wait .tToggle]) := by
  decide
theorem test_cursor_on : leaves .cursorOn readyState = some (0x96, [.tx [0x0C, 0x0C, 0x08, 0xEC, 0xEC, 0xE8], .wait .tToggle]) := by
  decide
/-- 95_test_vectors L2-6, the stale-field check. -/
theorem test_cursor_off : leaves .cursorOff (readyWith (Shadow.unpack 0x96)) =
    some (0x94, [.tx [0x0C, 0x0C, 0x08, 0xCC, 0xCC, 0xC8], .wait .tToggle]) := by decide
theorem test_blink_on : leaves .blinkOn readyState = some (0x95, [.tx [0x0C, 0x0C, 0x08, 0xDC, 0xDC, 0xD8], .wait .tToggle]) := by decide
theorem test_blink_off : leaves .blinkOff (readyWith (Shadow.unpack 0x97)) =
    some (0x96, [.tx [0x0C, 0x0C, 0x08, 0xEC, 0xEC, 0xE8], .wait .tToggle]) := by decide
theorem test_cursor_shift_left : leaves .cursorShiftLeft (readyWith (Shadow.unpack 0xF4)) =
    some (0x94, [.tx [0x1C, 0x1C, 0x18, 0x0C, 0x0C, 0x08], .wait .tToggle]) := by decide
theorem test_cursor_shift_right : leaves .cursorShiftRight readyState =
    some (0xB4, [.tx [0x1C, 0x1C, 0x18, 0x4C, 0x4C, 0x48], .wait .tToggle]) := by decide
theorem test_display_shift_left : leaves .displayShiftLeft readyState =
    some (0xD4, [.tx [0x1C, 0x1C, 0x18, 0x8C, 0x8C, 0x88], .wait .tToggle]) := by decide
theorem test_display_shift_right : leaves .displayShiftRight readyState =
    some (0xF4, [.tx [0x1C, 0x1C, 0x18, 0xCC, 0xCC, 0xC8], .wait .tToggle]) := by decide
theorem test_backlight_on : leaves .backlightOn (readyWith (Shadow.unpack 0x14)) =
    some (0x94, [.tx [0x0C, 0x0C, 0x08, 0xCC, 0xCC, 0xC8], .wait .tToggle]) := by decide
theorem test_backlight_off : leaves .backlightOff readyState =
    some (0x14, [.tx [0x04, 0x04, 0x00, 0xC4, 0xC4, 0xC0], .wait .tToggle]) := by decide
theorem test_clear_display : leaves .clearDisplay readyState =
    some (0x94, [.tx [0x0C, 0x0C, 0x08, 0x2C, 0x2C, 0x28], .wait .tClearHome, .tx [0x0C, 0x0C, 0x08, 0x1C, 0x1C, 0x18], .wait .tClearHome])
    := by decide
theorem test_return_home : leaves .returnHome readyState =
    some (0x94, [.tx [0x0C, 0x0C, 0x08, 0x1C, 0x1C, 0x18], .wait .tClearHome]) := by decide

/-! ## Another command table (00_scope R14, 93_implementation_defined I13) -/

/-- A table with other codes for CLEAR_DISPLAY and DISPLAY_CONTROL, and the blink bit elsewhere. -/
def otherCodes : HdCodes := { Config.hdCodes with clearDisplay := 0xA5, displayControl := 0x50, blinkOn := 0x08 }

/-- `readyState` built with that table. -/
def otherState : State := { readyState with params := { Config.defaultParams with hdCodes := otherCodes } }

/-- 0xA5 and 0x5C = 0x50 with D and B, in the words of 95_test_vectors L2-2. -/
theorem test_other_table : leaves .returnHome otherState =
      some (0x94, [.tx [0xAC, 0xAC, 0xA8, 0x5C, 0x5C, 0x58], .wait .tClearHome]) ∧
    leaves .blinkOn otherState = some (0x95, [.tx [0x5C, 0x5C, 0x58, 0xCC, 0xCC, 0xC8], .wait .tToggle]) ∧
    (State.construct Config.defaultDevice otherState.params).pending[17]? = some (.tx [0xAC, 0xAC, 0xA8, 0x5C, 0x5C, 0x58]) := by
  decide +kernel
/-- The table is ambiguous: 0xA5 is an address too. The write is made as it stands all the same. -/
theorem test_ambiguous_table : ¬otherCodes.Unambiguous ∧
    fetchWrite otherCodes true [0xAC, 0xAC, 0xA8, 0x5C, 0x5C, 0x58] = some .cmdClearDisplay ∧
    writes (.cmdSetDdramAddress 0x25) otherState = writes .cmdClearDisplay otherState := by decide +kernel

/-! ## Payload and wire rows: the write each makes (95_test_vectors L2-1 to L2-8) -/

theorem test_CLEAR_DISPLAY : writes .cmdClearDisplay (readyWith (Shadow.unpack 0x14)) = some [[0x04, 0x04, 0x00, 0x14, 0x14, 0x10]] := by decide
theorem test_RETURN_HOME : writes (.cmdReturnHome false) readyState = some [[0x0C, 0x0C, 0x08, 0x2C, 0x2C, 0x28]] := by decide
theorem test_ENTRY_MODE_SET : writes (.cmdEntryModeSet true false) readyState = some [[0x0C, 0x0C, 0x08, 0x6C, 0x6C, 0x68]] := by decide
theorem test_DISPLAY_CONTROL : writes (.cmdDisplayControl true false true) readyState = some [[0x0C, 0x0C, 0x08, 0xDC, 0xDC, 0xD8]] := by decide
theorem test_SHIFT : writes (.cmdShift false true 0) readyState = some [[0x1C, 0x1C, 0x18, 0x4C, 0x4C, 0x48]] := by decide
theorem test_FUNCTION_SET : writes (.cmdFunctionSet false true false 0) readyState = some [[0x2C, 0x2C, 0x28, 0x8C, 0x8C, 0x88]] := by decide
theorem test_SET_CGRAM_ADDRESS : writes (.cmdSetCgramAddress 0x18) readyState = some [[0x5C, 0x5C, 0x58, 0x8C, 0x8C, 0x88]] := by decide
theorem test_SET_DDRAM_ADDRESS : writes (.cmdSetDdramAddress 0x45) readyState = some [[0xCC, 0xCC, 0xC8, 0x5C, 0x5C, 0x58]] := by decide
theorem test_DATA_WRITE : writes (.dataWrite 0xFF) readyState = some [[0xFD, 0xFD, 0xF9, 0xFD, 0xFD, 0xF9]] := by decide
theorem test_FORCE8 : writes .nibbleForce8 readyState = some [[0x3C, 0x3C, 0x38]] := by decide
theorem test_MODE4 : writes .nibbleMode4 readyState = some [[0x2C, 0x2C, 0x28]] := by decide
theorem test_frame : writes (.wireFrame 0x2 false false) readyState = some [[0x24, 0x24, 0x20]] := by decide
theorem test_burst : writes (.wireBurst 0xF 0x0 true true) readyState = some [[0xFD, 0xFD, 0xF9, 0x0D, 0x0D, 0x09]] := by decide

/-! ## Transport results (95_test_vectors L2-10, P4) -/

/-- ShortWrite(2) delivers two bytes and leaves E high; under Propagate it sets `status`, under BestEffort not. -/
theorem test_short_write :
    delivered [0x4D, 0x4D, 0x49, 0x1D, 0x1D, 0x19] (.shortWrite 2) = [0x4D, 0x4D] ∧ (∀ e, pairingKept e [0x4D, 0x4D] = true) ∧
    (∀ e, pairingKept e [0x4D, 0x4D, 0x49, 0x1D] = false) ∧
    (performTxWith (.shortWrite 2) [0x4D, 0x4D, 0x49, 0x1D, 0x1D, 0x19] readyPropagate).status = .shortWrite ∧
    (performTxWith (.shortWrite 2) [0x4D, 0x4D, 0x49, 0x1D, 0x1D, 0x19] readyState).status = .ok := by decide
/-- 95_test_vectors P4: the first failure is kept, and acceptance of the next operation clears it. -/
theorem test_first_failure :
    statusAfter .propagate (statusAfter .propagate .ok .acquireFail) .targetFail = .acquireFail ∧
    (nextOf (exec .displayOff { readyPropagate with status := .shortWrite })).map (fun t => t.status) = some .ok := by decide
theorem test_draw_is_a_legal_result :
    legalResult 6 (.shortWrite 9) = .shortWrite 3 ∧ legalResult 0 (.shortWrite 9) = .ok ∧ legalResult 6 .targetFail = .targetFail := by
  decide

/-! ## Faults, refusals, reset, initialization -/

/-- 95_test_vectors L2-9: `03 00 04` faults, with no events. -/
theorem test_line_out_of_range :
    nextOf (step (readyAsked [0x03, 0x00, 0x04])) =
      some { readyState with fault := some .lineOutOfRange, trace := [.fault .lineOutOfRange] } := by decide +kernel
theorem test_reserved_request_is_refused :
    nextOf (step (readyAsked [0x05])) = some { readyAsked [0x05] with refused := true, trace := [.refusal .reservedRequest] } := by decide +kernel
/-- 95_test_vectors P5: nothing after a fault, and the mark is not cleared by reset. -/
theorem test_faulted_block_stops :
    faultOf (step { faultedState with requests := [[0x10]], resetIn := true }) = some (.faulted .lineOutOfRange) := by decide
theorem test_bad_configurations :
    (State.construct ⟨"", 0x27, 3, 16⟩ Config.defaultParams).trace = [.refusal .badConfigLines] ∧
    (State.construct ⟨"", 0x80, 2, 16⟩ Config.defaultParams).trace = [.refusal .badConfigAddress] ∧
    (State.construct ⟨"", 0x7F, 4, 20⟩ Config.defaultParams).pending = initEvents Config.hdCodes := by decide +kernel
/-- 95_test_vectors L2-3: a reset after backlight_off sends with BL = 1. -/
theorem test_reset_after_backlight_off :
    nextOf (step { readyWith (Shadow.unpack 0x14) with resetIn := true }) = some { readyState with phase := .init, pending := initEvents Config.hdCodes } := by
  decide +kernel
theorem test_init_ends_ready :
    (retire (busyWith [.wait .tClearHome])).phase = .ready ∧
    (retire lastInitWait).phase = .ready ∧
    (retire State.reset).phase = .init := by decide +kernel
theorem test_wait_is_recorded : (performWait .tPowerOn State.reset).trace = [.wait .tPowerOn 5000] := by decide
theorem test_host_actions :
    (presentRequest [0x10] (readyAsked [0x11])).requests = [[0x11], [0x10]] ∧ (assertReset readyState).resetIn = true := by decide
theorem test_host_reads_status :
    hostReadsStatus readyState = none ∧ hostReadsStatus readyPropagate = some .ok ∧
    hostReadsStatus { readyPropagate with pending := initEvents Config.hdCodes } = none := by decide +kernel

/-! ## Witnesses: for each statement with hypotheses, values that meet them; where a statement has several clauses, one for each, at
the ends of its range -/

/-- A Ready block with a write and its wait to perform. -/
def pendingWrite : State := busyWith [.tx [0x0C, 0x0C, 0x08, 0xCC, 0xCC, 0xC8], .wait .tToggle]

theorem witness_DecodeUndoesEncode :
    Config.hdCodes.Unambiguous ∧
    (Instr.printString [0x48]).WellFormed ∧ (Instr.printString [0x48]).format = .request ∧
    (Instr.cmdFunctionSet true false true 0).WellFormed ∧ (Instr.cmdFunctionSet true false true 0).format ≠ .request := by decide +kernel

theorem witness_EncodeUndoesDecode :
    decode Config.hdCodes .request [0x02, 0x01, 0x48, 0x10] = .ok (.printString [0x48], [0x10]) ∧
    decode Config.hdCodes .command [0x80] = .ok (.cmdSetDdramAddress 0, []) ∧ decode Config.hdCodes .data [0x00] = .ok (.dataWrite 0, []) ∧
    decode Config.hdCodes .nibble [0x03] = .ok (.nibbleForce8, []) ∧
    decode Config.hdCodes .wire [0x04, 0x04, 0x00] = .ok (.wireFrame 0 false false, []) := by decide

/-- Reserved codes at both sides of the rows, requests one byte short, and requests of exactly their length and one more. -/
theorem witness_ReservedAndTruncatedRequestsAreRefused :
    (∀ bytes ∈ [[0x00], [0x05], [0x0F], [0x16], [0x24], [0x32], [0x42], [(0xFF : Byte)]],
      isIdle (readyAsked bytes) = true ∧ (readyAsked bytes).resetIn = false ∧ (readyAsked bytes).requests = bytes :: [] ∧
        bytes ≠ [] ∧ requestLength bytes = none) ∧
    (∀ bytes ∈ [[0x01], [0x02], [0x02, 0x01], [0x03, 0x00], [0x04, 0, 0, 0, 0, 0, 0, 0, (0 : Byte)]],
      isIdle (readyAsked bytes) = true ∧ ((requestLength bytes).map (fun n => decide (bytes.length < n))) = some true) ∧
    (∀ bytes ∈ [[0x01, 0x00], [0x02, 0x00], [0x03, 0x00, 0x00, 0x09], [0x10], [0x15], [0x23], [(0x41 : Byte)]],
      isIdle (readyAsked bytes) = true ∧ ((requestLength bytes).map (fun n => decide (n ≤ bytes.length))) = some true) := by decide

theorem witness_AddressCommandsAreTruncatedSums :
    (0 : Byte).toNat ≤ 3 ∧ (3 : Byte).toNat ≤ 3 ∧ (0 : Byte).toNat ≤ 7 ∧ (7 : Byte).toNat ≤ 7 := by decide

theorem witness_StandardTableGivesTheDrawnBytes :
    (Instr.cmdEntryModeSet true false).format = .command ∧ drawnByte (.cmdEntryModeSet true false) = 0x06 := by decide

theorem witness_StepRunsTheDecodedInstruction :
    (isIdle (readyAsked [0x12]) = true ∧ (readyAsked [0x12]).resetIn = false ∧ (readyAsked [0x12]).requests = [0x12] :: [] ∧
      decodeRequest [0x12] = .ok (.cursorOn, [])) ∧
    (Live pendingWrite ∧ pendingWrite.pending = .tx [0x0C, 0x0C, 0x08, 0xCC, 0xCC, 0xC8] :: [.wait .tToggle] ∧
      fetchWrite pendingWrite.params.hdCodes pendingWrite.sh.backlightOn [0x0C, 0x0C, 0x08, 0xCC, 0xCC, 0xC8] = some (.cmdDisplayControl true false false)) := by
  decide

theorem witness_HeadEventIsPerformedRecordedAndRemoved :
    (Live (busyWith [.wait .tToggle]) ∧ (busyWith [.wait .tToggle]).pending = .wait .tToggle :: []) ∧
    (Live State.reset ∧ State.reset.pending = .wait .tPowerOn :: (initEvents Config.hdCodes).tail) ∧
    (Live pendingWrite ∧ pendingWrite.pending = .tx [0x0C, 0x0C, 0x08, 0xCC, 0xCC, 0xC8] :: [.wait .tToggle]) := by decide +kernel

theorem witness_NothingStartsWithoutTheHost :
    Live readyState ∧ readyState.pending = [] ∧ readyState.resetIn = false ∧ readyState.requests = [] := by decide

theorem witness_RequestsAreHeldUntilIdle :
    (Instr.displayOn.format = .request ∧ Live State.reset ∧ isIdle State.reset = false) ∧
    (isIdle State.reset = false ∧ ∃ t, step State.reset = .next t) ∧
    ((assertReset (readyAsked [0x10])).resetIn = true ∧ ∃ t, step (assertReset (readyAsked [0x10])) = .next t) :=
  ⟨by decide +kernel, ⟨by decide +kernel, _, rfl⟩, rfl, _, rfl⟩

theorem witness_AcceptedRequestLeavesThePort : Instr.blinkOn.format = .request ∧ isIdle (readyAsked [0x14]) = true := by decide

theorem witness_MarkedBlockStops :
    faultedState.fault = some .lineOutOfRange ∧ refusedState.fault = none ∧ refusedState.refused = true := by decide

theorem witness_WireRowsAreOneTransportWrite : Live readyState ∧ Live State.reset := by decide +kernel

theorem witness_PayloadRowsWriteTheirWords : Live readyState ∧ (Instr.cmdShift true true 3).format = .command := by decide

/-- The idle state of every statement on requests, and a line and a cell at each end of the ranges their clauses speak of. -/
theorem witness_CharactersAreIssuedToTheDataRegister : isIdle readyState = true := by decide
theorem witness_CursorPositionIsIssuedAsDdramAddress :
    isIdle readyState = true ∧ (0 : Byte).toNat ≤ 3 ∧ (3 : Byte).toNat ≤ 3 := by decide
theorem witness_LineOutOfRangeRaisesTheFault :
    isIdle readyState = true ∧ 3 < (4 : Byte).toNat ∧ 3 < (255 : Byte).toNat := by decide
theorem witness_CustomCharIsAnAddressAndEightRows :
    isIdle readyState = true ∧ (0 : Byte).toNat ≤ 7 ∧ (7 : Byte).toNat ≤ 7 ∧ 7 < (8 : Byte).toNat ∧ 7 < (255 : Byte).toNat := by decide
theorem witness_DisplayTogglesResendTheWholeGroup : isIdle (readyWith (Shadow.unpack 0x13)) = true := by decide
theorem witness_ShiftsWriteBothFieldsAndResend : isIdle (readyWith (Shadow.unpack 0xF4)) = true := by decide
theorem witness_BacklightTravelsWithItsOwnWrite : isIdle (readyWith (Shadow.unpack 0x14)) = true := by decide
theorem witness_ClearDisplayIsHomeThenClear : isIdle (readyAsked [0x40]) = true := by decide
theorem witness_ReturnHomeSendsClearDisplay : isIdle (readyAsked [0x41]) = true := by decide
theorem witness_PrintStringIsWriteCharInOrder :
    isIdle readyState = true ∧
    ((nextOf (exec (.printString [0x48]) readyState)).map fun t => t.pending) =
      ((nextOf (exec (.writeChar 0x48) readyState)).map fun t => t.pending) := by decide

theorem witness_ResetIsTakenFirstAndOnlyWhenNothingPends :
    (Live (assertReset readyState) ∧ (assertReset readyState).pending = [] ∧ (assertReset readyState).resetIn = true) ∧
    ((assertReset State.reset).pending ≠ [] ∧ ∃ t, step (assertReset State.reset) = .next t) :=
  ⟨by decide, by decide +kernel, _, rfl⟩

theorem witness_ConstructionGivesTheResetValues :
    ((1 : Nat) = 1 ∨ (1 : Nat) = 2 ∨ (1 : Nat) = 4) ∧ (DeviceConfig.mk "i2c-1" 0x7F 4 20).targetAddress.toNat ≤ 0x7F ∧
    ((DeviceConfig.mk "i2c-1" 0x7F 4 20).lines = 1 ∨ (DeviceConfig.mk "i2c-1" 0x7F 4 20).lines = 2 ∨
      (DeviceConfig.mk "i2c-1" 0x7F 4 20).lines = 4) := by decide

/-- Line counts on both sides of the legal ones, and the addresses at the limit: bad lines alone, a bad address alone. -/
theorem witness_BadConfigurationIsRefusedAtConstruction :
    (∀ lines ∈ [0, 3, 5], lines ≠ 1 ∧ lines ≠ 2 ∧ lines ≠ 4) ∧ ¬0x7F < (0x7F : Byte).toNat ∧
    (∀ lines ∈ [1, 2, 4], ¬(lines ≠ 1 ∧ lines ≠ 2 ∧ lines ≠ 4)) ∧ 0x7F < (0x80 : Byte).toNat := by decide

theorem witness_ShadowFieldsHaveTheListedWriters :
    (isIdle readyState = true ∧ ∃ t, exec .cursorOn readyState = .next t) ∧
    (Live (assertReset readyState) ∧ (assertReset readyState).pending = [] ∧ (assertReset readyState).resetIn = true) ∧
    (∃ t, step (assertReset (readyWith (Shadow.unpack 0x14))) = .next t ∧ t.sh ≠ (readyWith (Shadow.unpack 0x14)).sh) ∧
    (∃ t, step (readyAsked [0x12]) = .next t ∧ t.sh ≠ (readyAsked [0x12]).sh) :=
  ⟨⟨by decide, _, rfl⟩, by decide, ⟨_, rfl, by decide⟩, ⟨_, rfl, by decide +kernel⟩⟩

theorem witness_ConfigurationIsNeverWrittenAndTheTraceOnlyGrows : ∃ t, step (readyAsked [0x05]) = .next t := ⟨_, rfl⟩

/-- The way into Init always; the way to Ready when the last wait ends, which is the clock's to say. -/
theorem witness_PhaseChangesOnlyByInitializationAndReset :
    (∃ t, step (assertReset readyState) = .next t ∧ t.phase ≠ (assertReset readyState).phase) ∧
    (Config.eventEnds 0 = true → ∃ t, step lastInitWait = .next t ∧ t.phase ≠ lastInitWait.phase) := by
  refine ⟨⟨_, rfl, by decide⟩, fun h => ⟨retire (performWait .tClearHome lastInitWait), ?_, by decide +kernel⟩⟩
  have ends : step lastInitWait =
      .next (if Config.eventEnds 0 then retire (performWait .tClearHome lastInitWait) else hold lastInitWait) := rfl
  rw [ends, if_pos h]

theorem witness_PendingIsWrittenInThreePlaces :
    (∃ t, step (assertReset readyState) = .next t ∧ t.pending ≠ (assertReset readyState).pending) ∧
    (∃ t, step (readyAsked [0x12]) = .next t ∧ t.pending ≠ (readyAsked [0x12]).pending) :=
  ⟨⟨_, rfl, by decide +kernel⟩, ⟨_, rfl, by decide +kernel⟩⟩

theorem witness_EveryPendingEventIsPerformedWhateverTheAnswers :
    Live pendingWrite ∧ pendingWrite.pending = .tx [0x0C, 0x0C, 0x08, 0xCC, 0xCC, 0xC8] :: [.wait .tToggle] ∧
    Live State.reset ∧ State.reset.pending = .wait .tPowerOn :: (initEvents Config.hdCodes).tail ∧ Live readyState := by decide +kernel

theorem witness_ControlOperationsKeepEachOthersFields : isIdle (readyWith (Shadow.unpack 0x97)) = true := by decide

theorem witness_LastToggleOfEachFieldWins :
    isIdle readyState = true ∧ ∀ i ∈ [Instr.cursorOn, .blinkOn, .displayOff],
      i ∈ [Instr.displayOn, .displayOff, .cursorOn, .cursorOff, .blinkOn, .blinkOff] := by decide

theorem witness_TransportResultReachesOnlyTraceAndStatus : readyState.params.failurePolicy = .bestEffort := by decide

theorem witness_BestEffortNeverReports :
    (∃ t, step State.reset = .next t) ∧ State.reset.params.failurePolicy = .bestEffort ∧ State.reset.status = .ok :=
  ⟨⟨_, rfl⟩, by decide +kernel, by decide +kernel⟩

theorem witness_FailurePolicyChangesOnlyStatus :
    withoutPolicy readyState = withoutPolicy readyPropagate ∧ readyState ≠ readyPropagate := by decide
theorem witness_ShiftFieldsAffectNoEvent :
    withoutShift readyState = withoutShift (readyWith (Shadow.unpack 0xF4)) ∧ readyState ≠ readyWith (Shadow.unpack 0xF4) := by decide
theorem witness_DisplayGeometryIsNeverRead :
    withoutGeometry readyState = withoutGeometry { readyState with cfg := ⟨"", 0, 4, 20⟩ } ∧
    readyState ≠ { readyState with cfg := ⟨"", 0, 4, 20⟩ } := by decide

theorem witness_CutShortBurstsBreakPairingAtThreeToFive : 2 < 3 ∧ ∀ e, fallingEdges e ((frameWords 0x3 true false).take 2) = 0 := by decide

theorem witness_InvariantsHoldAfterConstruction : State.reset = State.construct Config.defaultDevice Config.defaultParams := rfl
theorem witness_OnlyTheListedWritesAreEverEmitted :
    EmissionInv (busyWith [.tx (burst 0x48 true true), .wait .tInstr]) ∧
    ∃ t, step (busyWith [.tx (burst 0x48 true true), .wait .tInstr]) = .next t := by
  refine ⟨⟨fun bytes h => ⟨.dataWrite 0x48, rfl, ?_, fun h => by cases h⟩, fun _ _ _ _ _ h => by cases h⟩, _, rfl⟩
  have h : bytes = burst 0x48 true true := by simpa [busyWith] using h
  subst h
  decide
theorem witness_EmittedCommandBytesAreTheListOfTheSpec :
    (Instr.cmdShift true false 0).format = .command ∧ (Instr.cmdShift true false 0).emitted = true ∧
    commandByte Config.hdCodes (.cmdShift true false 0) = 0x18 := by decide
theorem witness_EveryWriteIsFollowedByItsWait : SettleInv pendingWrite ∧ ∃ t, step pendingWrite = .next t :=
  ⟨by decide +kernel, _, rfl⟩

/-- An idle block with a short write and a wait on record. -/
def recordedState : State :=
  { readyState with trace := [.tx "" 0 [0x0C, 0x0C, 0x08] (.shortWrite 2) [0x0C, 0x0C], .wait .tInstr 100] }

theorem witness_TheRecordStaysRight : RecordInv recordedState ∧ ∃ t, step recordedState = .next t := by
  refine ⟨fun entry h => ?_, _, rfl⟩
  rcases List.mem_cons.mp h with rfl | h
  · exact ⟨rfl, rfl, by decide, rfl⟩
  · rw [List.mem_singleton.mp h]
    exact rfl
theorem witness_EntryModeNeverChanges : EntryModeFixed State.reset ∧ ∃ t, step State.reset = .next t := ⟨by decide +kernel, _, rfl⟩
theorem witness_PhaseAndFaultAgreeWithPending :
    (InitInv State.reset ∧ FaultInv State.reset) ∧ (∃ t, step State.reset = .next t) ∧
    (InitInv (readyAsked [0x03, 0x00, 0x04]) ∧ FaultInv (readyAsked [0x03, 0x00, 0x04])) ∧
    ∃ t, step (readyAsked [0x03, 0x00, 0x04]) = .next t :=
  ⟨by decide +kernel, ⟨_, rfl⟩, by decide +kernel, _, rfl⟩
theorem witness_RecordedWaitsMeetTheSpecMinimum : State.reset.params.InContract ∧ RecordInv State.reset ∧ ∃ t, step State.reset = .next t :=
  ⟨by decide +kernel, fun _ h => (by cases h), _, rfl⟩

theorem witness_MinimumTimesOfOperations :
    isIdle readyState = true ∧ { readyState.params with hdCodes := Config.hdCodes } = Config.defaultParams ∧ (0 : Byte).toNat ≤ 3 ∧ (3 : Byte).toNat ≤ 3 ∧
    (0 : Byte).toNat ≤ 7 ∧ (7 : Byte).toNat ≤ 7 := by decide

end Sys2Proof.Tests
end

/-! SUPPORT. The shadow after an instruction, said once, and the writers of each shadow field (10_state R41). -/

namespace Sys2Proof.Machine

/-! ## The shadow an accepted instruction leaves -/

/-- The shadow an idle block holds after an instruction: the writers of 10_state R41 and the values they write. -/
def shadowAfter (i : Instr) (sh : Shadow) : Shadow :=
  match i with
  | .displayOn => { sh with displayOn := true }
  | .displayOff => { sh with displayOn := false }
  | .cursorOn => { sh with cursorOn := true }
  | .cursorOff => { sh with cursorOn := false }
  | .blinkOn => { sh with blinkOn := true }
  | .blinkOff => { sh with blinkOn := false }
  | .cursorShiftLeft => { sh with shiftScope := .cursor, shiftDirection := .left }
  | .cursorShiftRight => { sh with shiftScope := .cursor, shiftDirection := .right }
  | .displayShiftLeft => { sh with shiftScope := .display, shiftDirection := .left }
  | .displayShiftRight => { sh with shiftScope := .display, shiftDirection := .right }
  | .backlightOn => { sh with backlightOn := true }
  | .backlightOff => { sh with backlightOn := false }
  | _ => sh

theorem shadowAfter_of_not_request {i : Instr} (h : i.format ≠ .request) (sh : Shadow) : shadowAfter i sh = sh := by
  cases i with
  | displayOn | displayOff | cursorOn | cursorOff | blinkOn | blinkOff => exact absurd rfl h
  | cursorShiftLeft | cursorShiftRight | displayShiftLeft | displayShiftRight => exact absurd rfl h
  | backlightOn | backlightOff => exact absurd rfl h
  | _ => rfl

theorem acceptIdle_requestOp_sh (i : Instr) (s : State) : (acceptIdle (requestOp i) s).sh = shadowAfter i s.sh := by
  cases i with
  | setCursorPosition column line =>
    cases hr : rowOffset line <;> simp [acceptIdle, requestOp, opSetCursorPosition, shadowAfter, hr]
  | loadCustomChar cell bitmap =>
    by_cases hc : 7 < cell.toNat <;> simp [acceptIdle, requestOp, opLoadCustomChar, shadowAfter, hc]
  | _ => rfl

/-- Acceptance is the only way an instruction writes the shadow: a block that is not idle keeps it (60_exceptions R237). -/
theorem exec_sh {i : Instr} {s t : State} (h : exec i s = .next t) :
    t.sh = if isIdle s then shadowAfter i s.sh else s.sh := by
  obtain ⟨-, ⟨-, hi, rfl⟩ | ⟨-, hi, rfl⟩ | ⟨hf, rfl⟩⟩ := exec_cases h
  · rw [if_pos hi, acceptIdle_requestOp_sh]
  · simp [hi]
  · simp [shadowAfter_of_not_request hf]

theorem exec_sh_of_idle {i : Instr} {s t : State} (hi : isIdle s = true) (h : exec i s = .next t) :
    t.sh = shadowAfter i s.sh := by
  rw [exec_sh h, if_pos hi]

/-- What `shadowAfter` keeps of a shadow, `exec` keeps in every state. -/
theorem exec_keeps_of_shadowAfter {α : Type} (view : Shadow → α) {i : Instr} {s t : State} (h : exec i s = .next t)
    (hv : view (shadowAfter i s.sh) = view s.sh) : view t.sh = view s.sh := by
  rw [exec_sh h]
  split
  · exact hv
  · rfl

theorem format_of_exec_sh_ne {i : Instr} {s t : State} (h : exec i s = .next t) (hne : t.sh ≠ s.sh) :
    i.format = .request := by
  by_contra hf
  exact hne (exec_keeps_of_shadowAfter id h (shadowAfter_of_not_request hf s.sh))

/-! ## What each field's writers are -/

theorem shadowAfter_displayOn {i : Instr} (sh : Shadow) (hon : i ≠ .displayOn) (hoff : i ≠ .displayOff) :
    (shadowAfter i sh).displayOn = sh.displayOn := by
  cases i with
  | displayOn => exact absurd rfl hon
  | displayOff => exact absurd rfl hoff
  | _ => rfl

theorem shadowAfter_cursorOn {i : Instr} (sh : Shadow) (hon : i ≠ .cursorOn) (hoff : i ≠ .cursorOff) :
    (shadowAfter i sh).cursorOn = sh.cursorOn := by
  cases i with
  | cursorOn => exact absurd rfl hon
  | cursorOff => exact absurd rfl hoff
  | _ => rfl

theorem shadowAfter_blinkOn {i : Instr} (sh : Shadow) (hon : i ≠ .blinkOn) (hoff : i ≠ .blinkOff) :
    (shadowAfter i sh).blinkOn = sh.blinkOn := by
  cases i with
  | blinkOn => exact absurd rfl hon
  | blinkOff => exact absurd rfl hoff
  | _ => rfl

theorem shadowAfter_backlightOn {i : Instr} (sh : Shadow) (hon : i ≠ .backlightOn) (hoff : i ≠ .backlightOff) :
    (shadowAfter i sh).backlightOn = sh.backlightOn := by
  cases i with
  | backlightOn => exact absurd rfl hon
  | backlightOff => exact absurd rfl hoff
  | _ => rfl

theorem shadowAfter_shift {i : Instr} (sh : Shadow) (hcl : i ≠ .cursorShiftLeft) (hcr : i ≠ .cursorShiftRight)
    (hdl : i ≠ .displayShiftLeft) (hdr : i ≠ .displayShiftRight) :
    (shadowAfter i sh).shiftScope = sh.shiftScope ∧ (shadowAfter i sh).shiftDirection = sh.shiftDirection := by
  cases i with
  | cursorShiftLeft => exact absurd rfl hcl
  | cursorShiftRight => exact absurd rfl hcr
  | displayShiftLeft => exact absurd rfl hdl
  | displayShiftRight => exact absurd rfl hdr
  | _ => exact ⟨rfl, rfl⟩

/-- The entry mode has no writer among the instructions. -/
@[simp] theorem shadowAfter_entryDirection (i : Instr) (sh : Shadow) :
    (shadowAfter i sh).entryDirection = sh.entryDirection := by
  cases i <;> rfl

@[simp] theorem shadowAfter_entryAutoShift (i : Instr) (sh : Shadow) :
    (shadowAfter i sh).entryAutoShift = sh.entryAutoShift := by
  cases i <;> rfl

/-! ## The shadow across a step -/

theorem performEvent_sh {event : Event} {s t : State} (hl : Live s) (h : performEvent event s = .next t) : t.sh = s.sh := by
  obtain ⟨u, hu, hw⟩ := performEvent_live (event := event) hl
  cases hu.symm.trans h
  obtain ⟨name, -, rfl⟩ | ⟨bytes, written, -, rfl⟩ := hw
  · exact performWait_sh name s
  · exact performTx_sh written s

/-- A step leaves the shadow, resets it, or runs an instruction. -/
theorem step_sh_cases {s t : State} (h : step s = .next t) :
    t.sh = s.sh ∨ (s.resetIn = true ∧ t.sh = Shadow.reset) ∨ ∃ i, exec i s = .next t := by
  obtain ⟨hl, ⟨-, rfl⟩ | ⟨event, rest, u, -, hu, rfl⟩ | ⟨-, hr, rfl⟩ | ⟨-, -, -, rfl⟩ | ⟨_, _, i, _, -, -, -, -, hx⟩ |
    ⟨_, _, reason, -, -, -, rfl⟩⟩ := step_cases h
  · exact .inl rfl
  · exact .inl ((retire_sh u).trans (performEvent_sh hl hu))
  · exact .inr (.inl ⟨hr, rfl⟩)
  · exact .inl rfl
  · exact .inr (.inr ⟨i, hx⟩)
  · exact .inl rfl

/-! ## Settled -/

/-- Settles O32: the frames and the values left are read off `shadowAfter`, the writers at a step off `step_sh_cases`. -/
theorem shadowFieldsHaveTheListedWriters : Obligations.ShadowFieldsHaveTheListedWriters := by
  refine ⟨fun i s t h => ?frames, fun s t hi => ?values, fun s hl hp hr => ?reset, fun s t h hne => ?noOther⟩
  case frames =>
    exact ⟨fun on off => exec_keeps_of_shadowAfter Shadow.displayOn h (shadowAfter_displayOn s.sh on off),
      fun on off => exec_keeps_of_shadowAfter Shadow.cursorOn h (shadowAfter_cursorOn s.sh on off),
      fun on off => exec_keeps_of_shadowAfter Shadow.blinkOn h (shadowAfter_blinkOn s.sh on off),
      exec_keeps_of_shadowAfter Shadow.entryDirection h (shadowAfter_entryDirection i s.sh),
      exec_keeps_of_shadowAfter Shadow.entryAutoShift h (shadowAfter_entryAutoShift i s.sh),
      fun cl cr dl dr =>
        have ⟨scope, direction⟩ := shadowAfter_shift s.sh cl cr dl dr
        ⟨exec_keeps_of_shadowAfter Shadow.shiftScope h scope, exec_keeps_of_shadowAfter Shadow.shiftDirection h direction⟩,
      fun on off => exec_keeps_of_shadowAfter Shadow.backlightOn h (shadowAfter_backlightOn s.sh on off)⟩
  case values =>
    refine ⟨?_, ?_, ?_, ?_, ?_, ?_, ?_, ?_, ?_, ?_, ?_, ?_⟩ <;> intro h <;> simp [exec_sh_of_idle hi h, shadowAfter]
  case reset => exact ⟨takeReset s, step_of_reset hl hp hr, rfl⟩
  case noOther =>
    obtain hk | hr | ⟨i, hx⟩ := step_sh_cases h
    · exact absurd hk hne
    · exact .inl hr
    · exact .inr ⟨i, format_of_exec_sh_ne hx hne, hx⟩

end Sys2Proof.Machine

/-! SUPPORT. The bytes of a frame, bit by bit: nibble, BL, E, RW = 0, RS from the most significant bit down (30_encoding R94, R95). -/

namespace Sys2Proof.Machine

/-! ## One byte of a frame -/

/-- The byte `nnnnle0r` of 30_encoding R95, with `e` on the enable line. -/
def frameByte (n : Nibble) (rs bl e : Bool) : Byte := n ++ bits2 bl e ++ bits2 false rs

/-- What `frame` computes by shifts and ors is the drawn pattern, E going 1, 1, 0. -/
theorem frame_eq_frameBytes (n : Nibble) (rs bl : Bool) :
    frame n rs bl = [frameByte n rs bl true, frameByte n rs bl true, frameByte n rs bl false] := by
  cases rs <;> cases bl <;> revert n <;> decide

theorem frameWords_eq_frameBytes (n : Nibble) (bl rs : Bool) :
    frameWords n bl rs = [frameByte n rs bl true, frameByte n rs bl true, frameByte n rs bl false] := rfl

/-- The framer builds the words that the encoder gives the row. -/
theorem frame_eq_frameWords (n : Nibble) (rs bl : Bool) : frame n rs bl = frameWords n bl rs :=
  (frame_eq_frameBytes n rs bl).trans (frameWords_eq_frameBytes n bl rs).symm

theorem bits2_getLsbD_one (a b : Bool) : (bits2 a b).getLsbD 1 = a := by
  cases a <;> cases b <;> rfl

theorem bits2_getLsbD_zero (a b : Bool) : (bits2 a b).getLsbD 0 = b := by
  cases a <;> cases b <;> rfl

/-- Every bit of the byte comes from one of its three fields. -/
theorem frameByte_getLsbD (n : Nibble) (rs bl e : Bool) (k : Nat) : (frameByte n rs bl e).getLsbD k =
    if k < 2 then (bits2 false rs).getLsbD k else if k - 2 < 2 then (bits2 bl e).getLsbD (k - 2) else n.getLsbD (k - 2 - 2) :=
  BitVec.getLsbD_append.trans (by rw [BitVec.getLsbD_append])

theorem frameByte_nibble (n : Nibble) (rs bl e : Bool) : (frameByte n rs bl e).extractLsb' 4 4 = n := by
  ext k hk
  rw [BitVec.getElem_extractLsb', frameByte_getLsbD, if_neg (by omega), if_neg (by omega), ← BitVec.getLsbD_eq_getElem]
  congr 1
  omega

theorem frameByte_backlight (n : Nibble) (rs bl e : Bool) : (frameByte n rs bl e).getLsbD 3 = bl :=
  (frameByte_getLsbD n rs bl e 3).trans (bits2_getLsbD_one bl e)

theorem frameByte_enable (n : Nibble) (rs bl e : Bool) : (frameByte n rs bl e).getLsbD 2 = e :=
  (frameByte_getLsbD n rs bl e 2).trans (bits2_getLsbD_zero bl e)

theorem frameByte_readWrite (n : Nibble) (rs bl e : Bool) : (frameByte n rs bl e).getLsbD 1 = false :=
  (frameByte_getLsbD n rs bl e 1).trans (bits2_getLsbD_one false rs)

theorem frameByte_registerSelect (n : Nibble) (rs bl e : Bool) : (frameByte n rs bl e).getLsbD 0 = rs :=
  (frameByte_getLsbD n rs bl e 0).trans (bits2_getLsbD_zero false rs)

/-- Asserting E sets bit 2 and nothing else. -/
theorem frameByte_assert (n : Nibble) (rs bl : Bool) : frameByte n rs bl true = frameByte n rs bl false ||| 0x04 := by
  cases rs <;> cases bl <;> revert n <;> decide

/-! ## Settled -/

/-- Settles O5: `frame` is three `frameByte`s, whose bits are read off one by one. -/
theorem frameCarriesItsOperandsAndPulsesEnable : Obligations.FrameCarriesItsOperandsAndPulsesEnable := by
  intro n rs bl
  refine ⟨_, _, _, frame_eq_frameBytes n rs bl, fun b hb => ?_, frameByte_enable .., frameByte_enable ..,
    frameByte_enable .., frameByte_assert n rs bl, frameByte_assert n rs bl⟩
  obtain ⟨e, rfl⟩ : ∃ e, b = frameByte n rs bl e := by
    simp only [List.mem_cons, List.not_mem_nil, or_false] at hb
    obtain rfl | rfl | rfl := hb
    · exact ⟨true, rfl⟩
    · exact ⟨true, rfl⟩
    · exact ⟨false, rfl⟩
  exact ⟨frameByte_nibble .., frameByte_backlight .., frameByte_readWrite .., frameByte_registerSelect ..⟩

end Sys2Proof.Machine

/-! SUPPORT. The six bytes of `send_command`, and the value and RS read back from them (30_encoding R96, R107, R115). -/

namespace Sys2Proof.Machine

/-! ## Fields of a frame's byte, by mask and shift -/

theorem frameByte_and_highMask (n : Nibble) (rs bl e : Bool) : frameByte n rs bl e &&& 0xF0 = n ++ 0#4 :=
  calc frameByte n rs bl e &&& 0xF0
    _ = (n ++ (bits2 bl e ++ bits2 false rs)) &&& (BitVec.allOnes 4 ++ 0#4) := by rw [frameByte, BitVec.append_assoc]; rfl
    _ = n ++ 0#4 := by rw [BitVec.and_append, BitVec.and_allOnes, BitVec.and_zero]

theorem frameByte_shiftRight_four (n : Nibble) (rs bl e : Bool) : frameByte n rs bl e >>> 4 = 0#4 ++ n := by
  rw [BitVec.ushiftRight_eq_extractLsb'_of_lt (by decide), BitVec.cast_eq]
  exact congrArg _ (frameByte_nibble n rs bl e)

theorem frameByte_and_one (n : Nibble) (rs bl e : Bool) : frameByte n rs bl e &&& 0x01 = b2i rs :=
  calc frameByte n rs bl e &&& 0x01
    _ = (BitVec.ofBool ((frameByte n rs bl e).getLsbD 0)).setWidth 8 := BitVec.and_one_eq_setWidth_ofBool_getLsbD
    _ = b2i rs := by rw [frameByte_registerSelect]; cases rs <;> rfl

/-! ## The two frames of a burst -/

/-- A byte of the high nibble's frame and one of the low nibble's give the value back (R115). -/
theorem frameBytes_readBack (v : Byte) (rs bl e : Bool) :
    (frameByte (highNibble v) rs bl e &&& (0xF0 : Byte)) ||| (frameByte (lowNibble v) rs bl e >>> 4) = v := by
  rw [frameByte_and_highMask, frameByte_shiftRight_four, BitVec.or_append, BitVec.or_zero, BitVec.zero_or]
  exact BitVec.extractLsb'_append_extractLsb'

theorem burst_eq_frameBytes (v : Byte) (rs bl : Bool) :
    burst v rs bl =
      [frameByte (highNibble v) rs bl true, frameByte (highNibble v) rs bl true, frameByte (highNibble v) rs bl false,
        frameByte (lowNibble v) rs bl true, frameByte (lowNibble v) rs bl true, frameByte (lowNibble v) rs bl false] := by
  rw [burst, frame_eq_frameBytes, frame_eq_frameBytes, List.cons_append, List.cons_append, List.cons_append, List.nil_append]

/-! ## Settled -/

/-- Settles O6: the write is six `frameByte`s, whose halves are the two frames and whose fields are read off. -/
theorem sendCommandIsTwoFramesHighNibbleFirst : Obligations.SendCommandIsTwoFramesHighNibbleFirst := by
  intro rs v sh
  refine ⟨_, congrArg Event.tx (burst_eq_frameBytes v rs sh.backlightOn), rfl, (frame_eq_frameBytes ..).symm,
    (frame_eq_frameBytes ..).symm, ?enable, frameBytes_readBack .., frameByte_and_one ..⟩
  case enable => simp only [List.map_cons, List.map_nil, frameByte_enable]

end Sys2Proof.Machine

/-! SUPPORT. The two groups that a control operation resends whole: DISPLAY_CONTROL and SHIFT (44_control_ops R200 to R209). -/

namespace Sys2Proof.Machine

/-! ## The events of `issue` -/

/-- The six computed bytes are the drawn words of the value. -/
theorem burst_eq_burstWords (v : Byte) (rs bl : Bool) : burst v rs bl = burstWords bl rs v := by
  rw [burst, frame_eq_frameWords, frame_eq_frameWords]
  rfl

theorem issue_eq_issueEvents (rs : Bool) (v : Byte) (name : WaitName) (sh : Shadow) :
    issue rs v name sh = issueEvents sh.backlightOn rs v name := by
  rw [issue, sendCommand, burst_eq_burstWords, issueEvents]

/-! ## Acceptance of a request -/

/-- An idle block accepts a request whose rule gives no fault, with the shadow and the events that the rule gives. -/
theorem acceptsWith_of_done {i : Instr} {s : State} {sh : Shadow} {events : List Event} (hf : i.format = .request)
    (hi : isIdle s = true) (hop : requestOp i s.params.hdCodes s.sh = .done sh events) : AcceptsWith i s sh events := by
  refine ⟨{ takeRequest s with sh := sh, pending := events }, ?accepted, rfl⟩
  rw [exec_request hf, accept_of_idle hi, acceptIdle_done hop]

/-- The rules that send one byte: `resendDisplay` and `resendShift` are of this form. -/
theorem acceptsWith_of_issue {i : Instr} {s : State} {sh : Shadow} {rs : Bool} {v : Byte} {name : WaitName}
    (hf : i.format = .request) (hi : isIdle s = true)
    (hop : requestOp i s.params.hdCodes s.sh = .done sh (issue rs v name sh)) :
    AcceptsWith i s sh (issueEvents sh.backlightOn rs v name) :=
  acceptsWith_of_done hf hi (by rw [hop, issue_eq_issueEvents])

/-! ## Settled -/

/-- Settles O21: the rule of each toggle is `resendDisplay` on the shadow with its one field written. -/
theorem displayTogglesResendTheWholeGroup : Obligations.DisplayTogglesResendTheWholeGroup := by
  intro s hi
  refine ⟨⟨rfl, ?displayOn⟩, ⟨rfl, ?displayOff⟩, ⟨rfl, ?cursorOn⟩, ⟨rfl, ?cursorOff⟩, ⟨rfl, ?blinkOn⟩, ⟨rfl, ?blinkOff⟩⟩
  all_goals exact acceptsWith_of_issue rfl hi rfl

/-- Settles O22: the rule of each shift operation is `resendShift` on the shadow with scope and direction written. -/
theorem shiftsWriteBothFieldsAndResend : Obligations.ShiftsWriteBothFieldsAndResend := by
  intro s hi
  refine ⟨⟨rfl, ?cursorLeft⟩, ⟨rfl, ?cursorRight⟩, ⟨rfl, ?displayLeft⟩, ⟨rfl, ?displayRight⟩⟩
  all_goals exact acceptsWith_of_issue rfl hi rfl

end Sys2Proof.Machine

/-! SUPPORT. A block that nothing is asked of: no request waits and the reset input is not asserted (60_exceptions R236). -/

namespace Sys2Proof.Machine

/-- An empty port offers nothing to run in either phase, so the block waits as it is. -/
theorem idleStep_of_no_request {s : State} (hl : Live s) (hr : s.resetIn = false) (hq : s.requests = []) :
    idleStep s = .next s := by
  cases hph : s.phase with
  | init => simp [idleStep, hr, hph, whenLive_of_live hl]
  | ready => simp [idleStep, hr, hph, hq, whenLive_of_live hl]

/-! ## Settled -/

/-- Settles O11: with nothing pending a step is `idleStep`, which neither reset nor a request moves. -/
theorem nothingStartsWithoutTheHost : Obligations.NothingStartsWithoutTheHost := by
  intro s hl hp hr hq
  rw [step_of_empty hl hp, idleStep_of_no_request hl hr hq]

end Sys2Proof.Machine

/-! SUPPORT. The decoders and the encoder undo each other, format by format (30_encoding R95 to R115). -/

namespace Sys2Proof.Machine

/-! ## Transport writes -/

/-- The reader of a frame gives back the operands its bytes were made from. -/
@[simp] theorem readFrame_frameBytes (n : Nibble) (rs bl : Bool) :
    readFrame (frameByte n rs bl true) (frameByte n rs bl true) (frameByte n rs bl false) = some (n, bl, rs) := by
  rw [readFrame, if_pos ⟨frameByte_assert n rs bl, rfl, frameByte_enable .., frameByte_readWrite ..⟩, frameByte_nibble,
    frameByte_backlight, frameByte_registerSelect]

/-- A byte with E and RW clear is the third byte of the frame of its own fields. -/
theorem frameByte_of_fields {b : Byte} (he : b.getLsbD 2 = false) (hrw : b.getLsbD 1 = false) :
    frameByte (b.extractLsb' 4 4) (b.getLsbD 0) (b.getLsbD 3) false = b := by
  revert b
  decide +kernel

theorem frameWords_of_readFrame {b0 b1 b2 : Byte} {n : Nibble} {bl rs : Bool} (h : readFrame b0 b1 b2 = some (n, bl, rs)) :
    frameWords n bl rs = [b0, b1, b2] := by
  unfold readFrame at h
  split at h
  · rename_i hb
    obtain ⟨h0, rfl, he, hrw⟩ := hb
    cases h
    rw [frameWords_eq_frameBytes, frameByte_assert, frameByte_of_fields he hrw, h0]
  · cases h

@[simp] theorem decodeWire_frameWords (n : Nibble) (bl rs : Bool) :
    decodeWire (frameWords n bl rs) = some (.wireFrame n bl rs) := by
  simp [frameWords_eq_frameBytes, decodeWire]

@[simp] theorem decodeWire_two_frameWords (hi lo : Nibble) (bl rs : Bool) :
    decodeWire (frameWords hi bl rs ++ frameWords lo bl rs) = some (.wireBurst hi lo bl rs) := by
  simp [frameWords_eq_frameBytes, decodeWire]

/-- A transport write is read only from the words of the row it is read as (R115). -/
theorem encode_of_decodeWire (codes : HdCodes) {bytes : List Byte} {i : Instr} (h : decodeWire bytes = some i) :
    i.format = .wire ∧ encode codes i = bytes := by
  unfold decodeWire at h
  split at h
  case h_1 b0 b1 b2 =>
    obtain ⟨⟨n, bl, rs⟩, hr, rfl⟩ := Option.map_eq_some_iff.mp h
    exact ⟨rfl, frameWords_of_readFrame hr⟩
  case h_2 b0 b1 b2 b3 b4 b5 =>
    split at h
    · rename_i hi bl rs lo bl' rs' hhi hlo
      split at h
      · rename_i hsame
        obtain ⟨rfl, rfl⟩ := hsame
        cases h
        refine ⟨rfl, ?_⟩
        rw [encode, frameWords_of_readFrame hhi, frameWords_of_readFrame hlo]
        rfl
      · cases h
    · cases h
  case h_3 => cases h

/-! ## Requests -/

/-- What `parse` reads after the code of a request row is a well-formed request whose words these are. -/
def RowReadsBack (row : RequestRow) : Prop :=
  ∀ (codes : HdCodes) (rest : List Byte) (i : Instr) (more : List Byte), row.parse rest = some (i, more) →
    i.format = .request ∧ encode codes i ++ more = row.code :: rest ∧ i.WellFormed

theorem bareRow_readsBack {code : Byte} {i : Instr} (hf : i.format = .request) (hw : i.WellFormed)
    (he : ∀ codes, encode codes i = [code]) : RowReadsBack (bareRow code i) := by
  intro codes rest j more h
  cases h
  exact ⟨hf, by rw [he]; rfl, hw⟩

theorem writeCharRow_readsBack : RowReadsBack ⟨0x01, parseWriteChar⟩ := by
  intro codes rest i more h
  match rest, h with
  | _ :: _, rfl => exact ⟨rfl, rfl, rfl⟩

theorem parsePrintString_some {n : Byte} {rest : List Byte} {answer : Instr × List Byte}
    (h : parsePrintString (n :: rest) = some answer) :
    n.toNat ≤ rest.length ∧ answer = (.printString (rest.take n.toNat), rest.drop n.toNat) := by
  by_cases hn : n.toNat ≤ rest.length
  · simp only [parsePrintString, if_pos hn, Option.some.injEq] at h
    exact ⟨hn, h.symm⟩
  · simp [parsePrintString, hn] at h

/-- The count byte is the length of the string that is read, so the string has at most 255 bytes (R112). -/
theorem printStringRow_readsBack : RowReadsBack ⟨0x02, parsePrintString⟩ := by
  intro codes rest i more h
  match rest, h with
  | n :: rest, h =>
    obtain ⟨hn, heq⟩ := parsePrintString_some h
    cases heq
    have hlen : (rest.take n.toNat).length = n.toNat := List.length_take_of_le hn
    refine ⟨rfl, ?words, ?count⟩
    case words => simp [encode, hlen]
    case count =>
      have : n.toNat < 2 ^ 8 := n.isLt
      exact decide_eq_true (by omega)

theorem setCursorPositionRow_readsBack : RowReadsBack ⟨0x03, parseSetCursorPosition⟩ := by
  intro codes rest i more h
  match rest, h with
  | _ :: _ :: _, rfl => exact ⟨rfl, rfl, rfl⟩

theorem loadCustomCharRow_readsBack : RowReadsBack ⟨0x04, parseLoadCustomChar⟩ := by
  intro codes rest i more h
  match rest, h with
  | _ :: _ :: _ :: _ :: _ :: _ :: _ :: _ :: _ :: _, rfl => exact ⟨rfl, rfl, rfl⟩

/-- A fact of the eighteen request rows is one of the four with operands and of each bare row of R111. -/
theorem forall_requestRows {P : RequestRow → Prop} (h1 : P ⟨0x01, parseWriteChar⟩) (h2 : P ⟨0x02, parsePrintString⟩)
    (h3 : P ⟨0x03, parseSetCursorPosition⟩) (h4 : P ⟨0x04, parseLoadCustomChar⟩)
    (bare : ∀ (code : Byte) (i : Instr), i.format = .request → i.WellFormed → (∀ codes, encode codes i = [code]) →
      (∀ rest, requestLength (code :: rest) = some 1) → P (bareRow code i)) :
    ∀ row ∈ requestRows, P row := by
  simp only [requestRows, List.cons_append, List.nil_append, List.forall_mem_cons, List.not_mem_nil, false_imp_iff, implies_true,
    and_true]
  refine ⟨h1, h2, h3, h4, ?_, ?_, ?_, ?_, ?_, ?_, ?_, ?_, ?_, ?_, ?_, ?_, ?_, ?_⟩
  all_goals exact bare _ _ rfl rfl (fun _ => rfl) (fun _ => rfl)

theorem requestRows_readBack : ∀ row ∈ requestRows, RowReadsBack row :=
  forall_requestRows writeCharRow_readsBack printStringRow_readsBack setCursorPositionRow_readsBack
    loadCustomCharRow_readsBack fun _ _ hf hw he _ => bareRow_readsBack hf hw he

theorem requestRow_some {code : Byte} {row : RequestRow} (h : requestRow code = some row) :
    row ∈ requestRows ∧ row.code = code :=
  ⟨List.mem_of_find?_eq_some h, by simpa using List.find?_some h⟩

/-- A request is read only from its own words, and the bytes after it are left (R110 to R113). -/
theorem encode_of_decodeRequest (codes : HdCodes) {bytes rest : List Byte} {i : Instr} (h : decodeRequest bytes = .ok (i, rest)) :
    i.format = .request ∧ encode codes i ++ rest = bytes ∧ i.WellFormed := by
  unfold decodeRequest at h
  split at h
  · cases h
  · split at h
    · cases h
    · rename_i row hrow
      obtain ⟨hmem, rfl⟩ := requestRow_some hrow
      split at h
      · cases h
      · rename_i answer hparse
        cases h
        exact requestRows_readBack row hmem codes _ _ _ hparse

/-- The count byte of a string of at most 255 bytes is its length (R112). -/
theorem parsePrintString_count {str : List Byte} (h : str.length ≤ 255) (rest : List Byte) :
    parsePrintString (BitVec.ofNat 8 str.length :: (str ++ rest)) = some (.printString str, rest) := by
  have hcount : (BitVec.ofNat 8 str.length).toNat = str.length := by
    rw [BitVec.toNat_ofNat]
    omega
  simp [parsePrintString, hcount]

theorem parseLoadCustomChar_rows (cell : Byte) (bitmap : Vector Byte 8) (rest : List Byte) :
    parseLoadCustomChar (cell :: (bitmap.toList ++ rest)) = some (.loadCustomChar cell bitmap, rest) := by
  obtain ⟨⟨rows⟩, hlen⟩ := bitmap
  match rows, hlen with
  | [_, _, _, _, _, _, _, _], _ => rfl

/-- A well-formed request is read back from its words, with the bytes after them left. -/
theorem decodeRequest_encode (codes : HdCodes) {i : Instr} (hf : i.format = .request) (hw : i.WellFormed) (rest : List Byte) :
    decodeRequest (encode codes i ++ rest) = .ok (i, rest) := by
  cases i with
  | printString str =>
    have hrow : requestRow 0x02 = some ⟨0x02, parsePrintString⟩ := rfl
    have hlen : str.length ≤ 255 := of_decide_eq_true hw
    simp only [encode, List.cons_append, decodeRequest, hrow, parsePrintString_count hlen]
  | loadCustomChar cell bitmap =>
    have hrow : requestRow 0x04 = some ⟨0x04, parseLoadCustomChar⟩ := rfl
    simp only [encode, List.cons_append, decodeRequest, hrow, parseLoadCustomChar_rows]
  | writeChar | setCursorPosition | displayOn | displayOff | cursorOn | cursorOff | blinkOn | blinkOff => rfl
  | cursorShiftLeft | cursorShiftRight | displayShiftLeft | displayShiftRight => rfl
  | backlightOn | backlightOff | clearDisplay | returnHome => rfl
  | _ => cases hf

/-! ## The other formats -/

theorem encode_command (codes : HdCodes) {i : Instr} (h : i.format = .command) : encode codes i = [commandByte codes i] := by
  cases i with
  | cmdClearDisplay | cmdReturnHome | cmdEntryModeSet | cmdDisplayControl | cmdShift | cmdFunctionSet => rfl
  | cmdSetCgramAddress | cmdSetDdramAddress => rfl
  | _ => cases h

theorem decode_command_encode {codes : HdCodes} (hu : codes.Unambiguous) {i : Instr} (h : i.format = .command) :
    decode codes .command (encode codes i) = .ok (i, []) := by
  simp [encode_command codes h, decode, decodeCommandByte_commandByte hu h]

theorem decode_wire_of_decodeWire (codes : HdCodes) {bytes : List Byte} {i : Instr} (h : decodeWire bytes = some i) :
    decode codes .wire bytes = .ok (i, []) := by
  simp [decode, h]

theorem decode_encode_of_not_request {codes : HdCodes} (hu : codes.Unambiguous) {i : Instr} (h : i.format ≠ .request) :
    decode codes i.format (encode codes i) = .ok (i, []) := by
  cases i with
  | cmdClearDisplay | cmdReturnHome | cmdEntryModeSet | cmdDisplayControl | cmdShift | cmdFunctionSet =>
    exact decode_command_encode hu rfl
  | cmdSetCgramAddress | cmdSetDdramAddress => exact decode_command_encode hu rfl
  | dataWrite | nibbleForce8 | nibbleMode4 => rfl
  | wireFrame n bl rs => exact decode_wire_of_decodeWire codes (decodeWire_frameWords n bl rs)
  | wireBurst hi lo bl rs => exact decode_wire_of_decodeWire codes (decodeWire_two_frameWords hi lo bl rs)
  | _ => exact absurd rfl h

/-- Only the two bytes 0x03 and 0x02 hold an initialization nibble in the low half and nothing in the high one (R106). -/
theorem encode_of_decodeNibble (codes : HdCodes) {v : Byte} {i : Instr} (h : decodeNibble (v.setWidth 4) = some i)
    (hv : v.toNat < 16) : i.format = .nibble ∧ encode codes i = [v] := by
  have hback : v = (v.setWidth 4).setWidth 8 := by bv_omega
  unfold decodeNibble at h
  split at h
  · rename_i h3
    cases h
    rw [h3] at hback
    exact ⟨rfl, congrArg (· :: []) hback.symm⟩
  · split at h
    · rename_i h2
      cases h
      rw [h2] at hback
      exact ⟨rfl, congrArg (· :: []) hback.symm⟩
    · cases h

/-- What any other decoder reads is a row of its format with exactly the bytes as its words. -/
theorem encode_of_decode {codes : HdCodes} {f : Format} (hf : f ≠ .request) {bytes rest : List Byte} {i : Instr}
    (h : decode codes f bytes = .ok (i, rest)) : i.format = f ∧ encode codes i ++ rest = bytes := by
  unfold decode at h
  split at h
  case h_1 => exact absurd rfl hf
  case h_2 v =>
    split at h
    · rename_i j hj
      cases h
      obtain ⟨hformat, hbyte⟩ := decodeCommandByte_some hj
      exact ⟨hformat, by rw [encode_command codes hformat, hbyte]; rfl⟩
    · cases h
  case h_3 v => cases h; exact ⟨rfl, rfl⟩
  case h_4 v =>
    split at h
    · rename_i j hj
      split at h
      · rename_i hv
        cases h
        obtain ⟨hformat, hwords⟩ := encode_of_decodeNibble codes hj hv
        exact ⟨hformat, by rw [hwords]; rfl⟩
      · cases h
    · cases h
  case h_5 =>
    split at h
    · rename_i j hj
      cases h
      obtain ⟨hformat, hwords⟩ := encode_of_decodeWire codes hj
      exact ⟨hformat, by rw [hwords, List.append_nil]⟩
    · cases h
  case h_6 => cases h

/-! ## The standard command table -/

/-- In table order, the standard command bytes count up from 0x01 to 0xFF (30_encoding R97 to R104, decision D3). -/
theorem commandBytes_hdCodes : commands.map (commandByte Config.hdCodes) = (List.range' 1 255).map (BitVec.ofNat 8) := by
  decide +kernel

theorem hdCodes_unambiguous : Config.hdCodes.Unambiguous := by
  unfold HdCodes.Unambiguous
  rw [commandBytes_hdCodes]
  refine List.Nodup.map_on (fun m hm n hn h => ?_) (List.nodup_range' (step := 1))
  simp only [List.mem_range'_1] at hm hn
  have hval : m % 2 ^ 8 = n % 2 ^ 8 := congrArg BitVec.toNat h
  omega

/-! ## Settled -/

/-- Settles O1: a request is parsed back row by row, any other row by its own format's reader. -/
theorem decodeUndoesEncode : Obligations.DecodeUndoesEncode := by
  refine ⟨hdCodes_unambiguous, fun codes i hu hw => ⟨fun hf rest => ?request, fun hf => ?other⟩⟩
  case request => exact decodeRequest_encode codes hf hw rest
  case other => exact decode_encode_of_not_request hu hf

/-- Settles O2: each decoder is inverted on its own format. -/
theorem encodeUndoesDecode : Obligations.EncodeUndoesDecode := by
  intro codes f bytes i rest h
  by_cases hf : f = .request
  · subst hf
    obtain ⟨hformat, hwords, hw⟩ := encode_of_decodeRequest codes h
    exact ⟨hformat, hwords, fun _ => hw⟩
  · obtain ⟨hformat, hwords⟩ := encode_of_decode hf h
    exact ⟨hformat, hwords, fun hr => absurd hr hf⟩

end Sys2Proof.Machine

/-! SUPPORT. What a step does, with no instruction left to look at: one constructor for each kind of step, and what each leaves. -/

namespace Sys2Proof.Machine

/-! ## Performing an event -/

/-- The bytes of a command row are the burst of its command byte. -/
theorem rowBytes_command (codes : HdCodes) (bl : Bool) {i : Instr} (h : i.format = .command) :
    rowBytes codes bl i = burst (commandByte codes i) false bl := by
  cases i with
  | cmdClearDisplay | cmdReturnHome | cmdEntryModeSet | cmdDisplayControl | cmdShift | cmdFunctionSet => rfl
  | cmdSetCgramAddress | cmdSetDdramAddress => rfl
  | _ => cases h

/-- The two frames of a burst carry the two nibbles of its value. -/
theorem burst_append (hi lo : Nibble) (rs bl : Bool) : burst (hi ++ lo) rs bl = frameWords hi bl rs ++ frameWords lo bl rs := by
  have hhi : highNibble (hi ++ lo) = hi := BitVec.extractLsb'_append_eq_left
  have hlo : lowNibble (hi ++ lo) = lo := BitVec.extractLsb'_append_eq_right
  rw [burst, hhi, hlo, frame_eq_frameWords, frame_eq_frameWords]

theorem rowBytes_decodeNibble (codes : HdCodes) (bl : Bool) (n : Nibble) :
    rowBytes codes bl ((decodeNibble n).getD (.wireFrame n bl false)) = frameWords n bl false := by
  unfold decodeNibble
  split
  · rename_i h; subst h; exact frame_eq_frameWords ..
  · split
    · rename_i h; subst h; exact frame_eq_frameWords ..
    · exact frame_eq_frameWords ..

theorem rowBytes_decodeCommandByte (codes : HdCodes) (bl : Bool) (hi lo : Nibble) :
    rowBytes codes bl ((decodeCommandByte codes (hi ++ lo)).getD (.wireBurst hi lo bl false)) =
      frameWords hi bl false ++ frameWords lo bl false := by
  cases hd : decodeCommandByte codes (hi ++ lo) with
  | none => exact burst_append ..
  | some i =>
    obtain ⟨hf, hv⟩ := decodeCommandByte_some hd
    rw [Option.getD_some, rowBytes_command codes bl hf, hv, burst_append]

/-- A fetched row writes exactly the bytes it was fetched from (30_encoding R115, log 10). -/
theorem rowBytes_of_fetchWrite {codes : HdCodes} {bl : Bool} {bytes : List Byte} {i : Instr}
    (h : fetchWrite codes bl bytes = some i) : rowBytes codes bl i = bytes := by
  unfold fetchWrite at h
  split at h
  case h_1 n l rs hw =>
    obtain ⟨-, rfl⟩ := encode_of_decodeWire codes hw
    split at h
    · rename_i hpayload
      obtain ⟨rfl, rfl⟩ := hpayload
      cases h
      exact rowBytes_decodeNibble ..
    · cases h
      exact frame_eq_frameWords ..
  case h_2 hi lo l rs hw =>
    obtain ⟨-, rfl⟩ := encode_of_decodeWire codes hw
    split at h
    · rename_i hbl
      subst hbl
      cases rs with
      | true => cases h; exact burst_append ..
      | false => cases h; exact rowBytes_decodeCommandByte ..
    · cases h
      exact burst_append ..
  case h_3 => cases h

/-- The event performed as it stands, and not yet retired. -/
def performed (event : Event) (s : State) : State :=
  match event with
  | .wait name => performWait name s
  | .tx bytes => performTx bytes s

@[simp] theorem performed_wait (name : WaitName) (s : State) : performed (.wait name) s = performWait name s := rfl
@[simp] theorem performed_tx (bytes : List Byte) (s : State) : performed (.tx bytes) s = performTx bytes s := rfl

/-- Decoding a pending write and running its row comes to making the write. -/
theorem performEvent_of_live {s : State} (hl : Live s) (event : Event) : performEvent event s = .next (performed event s) := by
  cases event with
  | wait name => exact whenLive_of_live hl _
  | tx bytes =>
    simp only [performEvent]
    split
    · rename_i i hi
      rw [exec_write (fetchWrite_format hi), rowBytes_of_fetchWrite hi]
      exact whenLive_of_live hl _
    · exact whenLive_of_live hl _

@[simp] theorem performed_cfg (event : Event) (s : State) : (performed event s).cfg = s.cfg := by cases event <;> rfl
@[simp] theorem performed_params (event : Event) (s : State) : (performed event s).params = s.params := by cases event <;> rfl
@[simp] theorem performed_sh (event : Event) (s : State) : (performed event s).sh = s.sh := by cases event <;> rfl
@[simp] theorem performed_phase (event : Event) (s : State) : (performed event s).phase = s.phase := by cases event <;> rfl
@[simp] theorem performed_pending (event : Event) (s : State) : (performed event s).pending = s.pending := by cases event <;> rfl
@[simp] theorem performed_fault (event : Event) (s : State) : (performed event s).fault = s.fault := by cases event <;> rfl
@[simp] theorem performed_refused (event : Event) (s : State) : (performed event s).refused = s.refused := by cases event <;> rfl
@[simp] theorem performed_requests (event : Event) (s : State) : (performed event s).requests = s.requests := by cases event <;> rfl
@[simp] theorem performed_resetIn (event : Event) (s : State) : (performed event s).resetIn = s.resetIn := by cases event <;> rfl
@[simp] theorem performed_draws (event : Event) (s : State) : (performed event s).draws = s.draws + 1 := by cases event <;> rfl

/-- What performing an event puts on record. -/
def performedEntry (event : Event) (s : State) : TraceEvent :=
  match event with
  | .wait name => .wait name (s.params.minimum name)
  | .tx bytes => .tx s.cfg.busPath s.cfg.targetAddress bytes (nextResult s bytes) (delivered bytes (nextResult s bytes))

@[simp] theorem performed_trace (event : Event) (s : State) :
    (performed event s).trace = s.trace ++ [performedEntry event s] := by cases event <;> rfl

/-- With the answer of the free value, an event is performed and retired as `performAndRetire` says. -/
theorem performAndRetire_answerTo (event : Event) (s : State) :
    performAndRetire (answerTo event s) event s = retire (performed event s) := by cases event <;> rfl

/-! ## The step -/

/-- A step with something pending performs and retires the head event once it is over, and holds at it until then. -/
theorem step_of_head {s : State} {event : Event} {rest : List Event} (hl : Live s) (hp : s.pending = event :: rest) :
    step s = .next (if Config.eventEnds s.draws then retire (performed event s) else hold s) := by
  rw [step_of_pending hl hp, performEvent_of_live hl]
  rfl

/-- The kinds of step of a block without marks. -/
inductive StepKind (s : State) : State → Prop
  /-- The head event is not over. -/
  | held (hp : s.pending ≠ []) : StepKind s (hold s)
  /-- The head event is performed and retired. -/
  | performed (event : Event) (rest : List Event) (hp : s.pending = event :: rest) : StepKind s (retire (performed event s))
  /-- The reset input is taken. -/
  | reset (hp : s.pending = []) (hr : s.resetIn = true) : StepKind s (takeReset s)
  /-- Nothing is asked for. -/
  | waited (hp : s.pending = []) : StepKind s s
  /-- A request is accepted and its events become pending. -/
  | accepted (i : Instr) (sh : Shadow) (events : List Event) (hi : isIdle s = true) (hr : s.resetIn = false)
    (hf : i.format = .request) (hop : requestOp i s.params.hdCodes s.sh = .done sh events)
    (hx : exec i s = .next { takeRequest s with sh := sh, pending := events }) :
    StepKind s { takeRequest s with sh := sh, pending := events }
  /-- A request is accepted and raises its fault. -/
  | faulted (reason : FaultReason) (hi : isIdle s = true) (hr : s.resetIn = false) :
    StepKind s (raiseFault reason (takeRequest s))
  /-- A request is refused. -/
  | refused (reason : RefusalReason) (hi : isIdle s = true) (hr : s.resetIn = false) : StepKind s (refuse reason s)

theorem exec_request_of_idle {i : Instr} {s : State} (hf : i.format = .request) (hi : isIdle s = true) :
    exec i s = .next (acceptIdle (requestOp i) s) := by
  rw [exec_request hf, accept_of_idle hi]

/-- Every step that answers a next state is of one of these kinds. -/
theorem stepKind_of_step {s t : State} (h : step s = .next t) : StepKind s t := by
  obtain ⟨hl, ⟨hp, rfl⟩ | ⟨event, rest, u, hp, hu, rfl⟩ | ⟨hp, hr, rfl⟩ | ⟨hp, -, -, rfl⟩ |
    ⟨bytes, _, i, rest, hi, hr, -, hd, hx⟩ | ⟨_, _, reason, hi, hr, -, rfl⟩⟩ := step_cases h
  · exact .held hp
  · cases (performEvent_of_live hl event).symm.trans hu
    exact .performed event rest hp
  · exact .reset hp hr
  · exact .waited hp
  · obtain ⟨hf, -, -⟩ := encode_of_decodeRequest s.params.hdCodes hd
    cases (exec_request_of_idle hf hi).symm.trans hx
    cases hop : requestOp i s.params.hdCodes s.sh with
    | done sh events =>
      rw [acceptIdle_done hop] at hx ⊢
      exact .accepted i sh events hi hr hf hop hx
    | raise reason =>
      rw [acceptIdle_raise hop]
      exact .faulted reason hi hr
  · exact .refused reason hi hr

end Sys2Proof.Machine

/-! SUPPORT. What the operations and the initialization send, and the invariants of what is pending and on record: emitted rows
(30_encoding R93, R106, R114), a wait after each write (41_command_encoder R149), and a true record (00_scope R11). -/

namespace Sys2Proof.Machine

/-! ## The events an operation issues -/

/-- Events that are `issue`s, each of an emitted command's byte or of a data byte. -/
inductive Issued (codes : HdCodes) (sh : Shadow) : List Event → Prop
  | nil : Issued codes sh []
  | command {i : Instr} {rest : List Event} (name : WaitName) (hf : i.format = .command) (he : i.emitted = true)
    (hrest : Issued codes sh rest) : Issued codes sh (issue false (commandByte codes i) name sh ++ rest)
  | data {rest : List Event} (v : Byte) (name : WaitName) (hrest : Issued codes sh rest) :
    Issued codes sh (issue true v name sh ++ rest)

theorem Issued.append {codes : HdCodes} {sh : Shadow} {as bs : List Event} (ha : Issued codes sh as) (hb : Issued codes sh bs) :
    Issued codes sh (as ++ bs) := by
  induction ha with
  | nil => exact hb
  | command name hf he _ ih => rw [List.append_assoc]; exact .command name hf he ih
  | data v name _ ih => rw [List.append_assoc]; exact .data v name ih

theorem issued_command (codes : HdCodes) (sh : Shadow) {i : Instr} (name : WaitName) (hf : i.format = .command)
    (he : i.emitted = true) : Issued codes sh (issue false (commandByte codes i) name sh) :=
  .command name hf he .nil

/-- A string of bytes sent to the data register. -/
theorem issued_string (codes : HdCodes) (sh : Shadow) (name : WaitName) (str : List Byte) :
    Issued codes sh (str.flatMap fun b => issue true b name sh) := by
  induction str with
  | nil => exact .nil
  | cons b str ih => exact .data b name ih

theorem cgramCell_emitted (cell : Byte) : (Instr.cmdSetCgramAddress (cell.setWidth 6 <<< 3)).emitted = true := by
  revert cell
  decide +kernel

/-- Everything a request makes pending is issued. -/
theorem issued_of_requestOp {i : Instr} {codes : HdCodes} {sh sh' : Shadow} {events : List Event}
    (h : requestOp i codes sh = .done sh' events) : Issued codes sh' events := by
  cases i with
  | writeChar b => cases h; exact .data b .tInstr .nil
  | printString str => cases h; exact issued_string ..
  | setCursorPosition column line =>
    simp only [requestOp, opSetCursorPosition] at h
    split at h
    · cases h
    · cases h; exact issued_command _ _ _ rfl rfl
  | loadCustomChar cell bitmap =>
    simp only [requestOp, opLoadCustomChar] at h
    split at h
    · cases h; exact .nil
    · cases h; exact .command _ rfl (cgramCell_emitted cell) (issued_string ..)
  | displayOn | displayOff | cursorOn | cursorOff | blinkOn | blinkOff => cases h; exact issued_command _ _ _ rfl rfl
  | cursorShiftLeft | cursorShiftRight | displayShiftLeft | displayShiftRight => cases h; exact issued_command _ _ _ rfl rfl
  | backlightOn | backlightOff | returnHome => cases h; exact issued_command _ _ _ rfl rfl
  | clearDisplay => cases h; exact .command _ rfl rfl (issued_command _ _ _ rfl rfl)
  | _ => cases h; exact .nil

/-- Initialization issues six commands after its single frames (42_init_sequencer R164 to R168). -/
theorem issued_initGroups (codes : HdCodes) : Issued codes .reset (initGroups codes .reset ++ initClearHome codes .reset) := by
  refine .append (.append (.append (.append ?_ ?_) ?_) ?_) (.append ?_ ?_)
  all_goals exact issued_command _ _ _ rfl rfl

/-! ## Emitted rows -/

theorem emittable_mono {codes : HdCodes} {p q : Prop} {bl : Bool} {bytes : List Byte} (h : p → q)
    (he : Emittable codes p bl bytes) : Emittable codes q bl bytes := by
  obtain ⟨i, hi, hw, hn⟩ := he
  exact ⟨i, hi, hw, fun hf => h (hn hf)⟩

theorem emittable_command (codes : HdCodes) (p : Prop) (bl : Bool) {i : Instr} (hf : i.format = .command)
    (he : i.emitted = true) : Emittable codes p bl (burst (commandByte codes i) false bl) := by
  refine ⟨i, he, ?_, fun hn => by rw [hf] at hn; cases hn⟩
  rw [burst_eq_burstWords, Instr.wireWords, hf, encode_command codes hf]

theorem emittable_data (codes : HdCodes) (p : Prop) (bl : Bool) (v : Byte) : Emittable codes p bl (burst v true bl) :=
  ⟨.dataWrite v, rfl, (burst_eq_burstWords v true bl).symm, fun hn => by cases hn⟩

theorem emittable_pulse (codes : HdCodes) (bl : Bool) {p : Prop} (hp : p) {n : Nibble} (hn : n = 0x3 ∨ n = 0x2) :
    Emittable codes p bl (frame n false bl) := by
  obtain rfl | rfl := hn
  · exact ⟨.nibbleForce8, rfl, (frame_eq_frameWords ..).symm, fun _ => hp⟩
  · exact ⟨.nibbleMode4, rfl, (frame_eq_frameWords ..).symm, fun _ => hp⟩

/-- Every write of the list is one the block may emit. -/
def Emits (codes : HdCodes) (single : Prop) (bl : Bool) (events : List Event) : Prop :=
  ∀ bytes, Event.tx bytes ∈ events → Emittable codes single bl bytes

theorem emits_of_issued {codes : HdCodes} {sh : Shadow} {events : List Event} (p : Prop) (h : Issued codes sh events) :
    Emits codes p sh.backlightOn events := by
  induction h with
  | nil => exact fun _ hm => by cases hm
  | command name hf he _ ih =>
    intro bytes hm
    simp only [issue, sendCommand, List.cons_append, List.nil_append, List.mem_cons, Event.tx.injEq, reduceCtorEq, false_or] at hm
    obtain rfl | hm := hm
    · exact emittable_command codes p _ hf he
    · exact ih bytes hm
  | data v name _ ih =>
    intro bytes hm
    simp only [issue, sendCommand, List.cons_append, List.nil_append, List.mem_cons, Event.tx.injEq, reduceCtorEq, false_or] at hm
    obtain rfl | hm := hm
    · exact emittable_data codes p _ v
    · exact ih bytes hm

theorem emits_append {codes : HdCodes} {p : Prop} {bl : Bool} {as bs : List Event} (ha : Emits codes p bl as)
    (hb : Emits codes p bl bs) : Emits codes p bl (as ++ bs) := fun bytes hm =>
  (List.mem_append.mp hm).elim (ha bytes) (hb bytes)

theorem emits_initPulses (codes : HdCodes) {p : Prop} (hp : p) (sh : Shadow) :
    Emits codes p sh.backlightOn (initPowerOn ++ initForce sh ++ initMode4 sh) := by
  intro bytes hm
  simp only [initPowerOn, initForce, initMode4, pulseNibble, List.cons_append, List.nil_append, List.mem_cons, Event.tx.injEq,
    reduceCtorEq, List.not_mem_nil, or_false, false_or] at hm
  obtain rfl | rfl | rfl | rfl := hm
  all_goals exact emittable_pulse codes _ hp (by decide)

theorem initEvents_eq (codes : HdCodes) :
    initEvents codes = (initPowerOn ++ initForce .reset ++ initMode4 .reset) ++ (initGroups codes .reset ++ initClearHome codes .reset) :=
  List.append_assoc ..

theorem emits_initEvents (codes : HdCodes) {p : Prop} (hp : p) : Emits codes p Shadow.reset.backlightOn (initEvents codes) := by
  rw [initEvents_eq]
  exact emits_append (emits_initPulses codes hp .reset) (emits_of_issued p (issued_initGroups codes))

/-- Every write on record is one the block may emit. -/
def EmittedOnRecord (codes : HdCodes) (trace : List TraceEvent) : Prop :=
  ∀ bus address bytes result got, TraceEvent.tx bus address bytes result got ∈ trace → ∃ bl, Emittable codes True bl bytes

theorem emissionInv_iff {s : State} :
    EmissionInv s ↔ Emits s.params.hdCodes (s.phase = .init) s.sh.backlightOn s.pending ∧
      EmittedOnRecord s.params.hdCodes s.trace := Iff.rfl

/-- A mark adds no write to the record. -/
theorem emittedOnRecord_append_mark {codes : HdCodes} {trace : List TraceEvent} {entry : TraceEvent}
    (h : EmittedOnRecord codes trace) (hmark : ∀ bus address bytes result got, entry ≠ .tx bus address bytes result got) :
    EmittedOnRecord codes (trace ++ [entry]) := by
  intro bus address bytes result got hm
  obtain hm | hm := List.mem_append.mp hm
  · exact h _ _ _ _ _ hm
  · exact absurd (List.mem_singleton.mp hm).symm (hmark _ _ _ _ _)

/-- The head event, if it was one the block may emit, goes on record as such. -/
theorem emittedOnRecord_performed {s : State} {event : Event} {p : Prop} {bl : Bool} (h : EmittedOnRecord s.params.hdCodes s.trace)
    (he : Emits s.params.hdCodes p bl [event]) : EmittedOnRecord s.params.hdCodes (performed event s).trace := by
  cases event with
  | wait name => exact emittedOnRecord_append_mark h fun _ _ _ _ _ hne => by cases hne
  | tx written =>
    intro bus address bytes result got hm
    rw [performed_trace] at hm
    obtain hm | hm := List.mem_append.mp hm
    · exact h _ _ _ _ _ hm
    · cases List.mem_singleton.mp hm
      exact ⟨bl, emittable_mono (fun _ => trivial) (he written (List.mem_singleton_self _))⟩

/-- The events behind a head are in the same phase as before it is retired. -/
theorem emits_retire {s : State} {event : Event} {rest : List Event} (hp : s.pending = event :: rest)
    (h : Emits s.params.hdCodes (s.phase = .init) s.sh.backlightOn s.pending) :
    Emits s.params.hdCodes ((retire (performed event s)).phase = .init) s.sh.backlightOn rest := by
  intro bytes hm
  have hrest : rest ≠ [] := List.ne_nil_of_mem hm
  refine emittable_mono (fun hph => ?_) (h bytes (by rw [hp]; exact List.mem_cons_of_mem _ hm))
  simp [hp, hrest, hph]

/-- The step lemma of the emission invariant. -/
theorem emissionInv_of_stepKind {s t : State} (h : EmissionInv s) (hk : StepKind s t) : EmissionInv t := by
  obtain ⟨hpending, hrecord⟩ := emissionInv_iff.mp h
  cases hk with
  | held => exact h
  | performed event rest hp =>
    have hhead : Emits s.params.hdCodes (s.phase = .init) s.sh.backlightOn [event] := fun bytes hm =>
      hpending bytes (by rw [hp, List.mem_singleton.mp hm]; exact List.mem_cons_self)
    refine emissionInv_iff.mpr ⟨?_, ?_⟩
    · simpa [hp] using emits_retire hp hpending
    · simpa using emittedOnRecord_performed hrecord hhead
  | reset => exact ⟨emits_initEvents s.params.hdCodes rfl, hrecord⟩
  | waited => exact h
  | accepted i sh events hi hr hf hop => exact ⟨emits_of_issued _ (issued_of_requestOp hop), hrecord⟩
  | faulted reason => exact ⟨hpending, emittedOnRecord_append_mark hrecord fun _ _ _ _ _ hne => by cases hne⟩
  | refused reason => exact ⟨hpending, emittedOnRecord_append_mark hrecord fun _ _ _ _ _ hne => by cases hne⟩

/-! ## A wait after each write -/

theorem everyWriteSettles_append {as bs : List Event} (ha : everyWriteSettles as = true) (hb : everyWriteSettles bs = true) :
    everyWriteSettles (as ++ bs) = true := by
  induction as using everyWriteSettles.induct with
  | case1 bytes name rest ih => exact ih ha
  | case2 bytes rest hno =>
    match rest, hno, ha with
    | .wait name :: rest, hno, _ => exact absurd rfl (hno name rest)
  | case3 name rest ih => exact ih ha
  | case4 => exact hb

theorem everyWriteSettles_of_issued {codes : HdCodes} {sh : Shadow} {events : List Event} (h : Issued codes sh events) :
    everyWriteSettles events = true := by
  induction h with
  | nil => rfl
  | command _ _ _ _ ih => exact ih
  | data _ _ _ ih => exact ih

theorem everyWriteSettles_initEvents (codes : HdCodes) : everyWriteSettles (initEvents codes) = true := by
  rw [initEvents_eq]
  exact everyWriteSettles_append rfl (everyWriteSettles_of_issued (issued_initGroups codes))

@[simp] theorem history_append (as bs : List TraceEvent) : history (as ++ bs) = history as ++ history bs :=
  List.filterMap_append

@[simp] theorem history_performedEntry (event : Event) (s : State) : history [performedEntry event s] = [event] := by
  cases event <;> rfl

@[simp] theorem history_fault (reason : FaultReason) : history [.fault reason] = [] := rfl

@[simp] theorem history_refusal (reason : RefusalReason) : history [.refusal reason] = [] := rfl

/-- With nothing pending the invariant is about the record alone, and any settled list can be loaded. -/
theorem settleInv_load {s : State} {events : List Event} (h : SettleInv s) (hp : s.pending = [])
    (he : everyWriteSettles events = true) : everyWriteSettles (history s.trace ++ events) = true := by
  rw [SettleInv, hp, List.append_nil] at h
  exact everyWriteSettles_append h he

/-- The step lemma: a performed event moves from `pending` to the record, in its place in the list. -/
theorem settleInv_of_stepKind {s t : State} (h : SettleInv s) (hk : StepKind s t) : SettleInv t := by
  cases hk with
  | held => exact h
  | performed event rest hp =>
    rw [SettleInv, hp] at h
    simpa [SettleInv, hp] using h
  | reset hp => exact settleInv_load (s := s) h hp (everyWriteSettles_initEvents _)
  | waited => exact h
  | accepted i sh events hi hr hf hop =>
    exact settleInv_load (s := s) h (isIdle_iff.mp hi).2.1 (everyWriteSettles_of_issued (issued_of_requestOp hop))
  | faulted reason => simpa [SettleInv] using h
  | refused reason => simpa [SettleInv] using h

/-! ## A true record -/

/-- What was right on an unmarked block stays right where configuration and parameters stay: no mark was on record. -/
theorem recordedRight_of_live {s t : State} {entry : TraceEvent} (hl : Live s) (hc : t.cfg = s.cfg) (hpar : t.params = s.params)
    (h : RecordedRight s entry) : RecordedRight t entry := by
  obtain ⟨hfault, hrefused⟩ := hl
  cases entry with
  | tx bus address bytes result got => simpa only [RecordedRight, hc] using h
  | wait name minimum => simpa only [RecordedRight, hpar] using h
  | fault reason => exact absurd (hfault.symm.trans h) (by simp)
  | refusal reason => exact absurd (hrefused.symm.trans h) (by simp)

/-- A write's result is one that 20_memory R68 allows, and its delivered bytes are the part it names (R69). -/
theorem recordedRight_performedEntry (event : Event) (s : State) : RecordedRight s (performedEntry event s) := by
  cases event with
  | wait name => rfl
  | tx bytes =>
    refine ⟨rfl, rfl, ?_⟩
    simp only [nextResult]
    cases Config.transportResult s.draws with
    | ok | acquireFail | targetFail => rfl
    | shortWrite k =>
      by_cases hlen : bytes.length = 0
      · simp [legalResult, hlen, delivered]
      · simp only [legalResult, if_neg hlen, delivered, and_true]
        exact Nat.mod_lt _ (Nat.pos_of_ne_zero hlen)

/-- A record grows rightly by an entry that is right. -/
theorem recordInv_append {s t : State} {entry : TraceEvent} (h : RecordInv s) (hl : Live s) (hc : t.cfg = s.cfg)
    (hpar : t.params = s.params) (ht : t.trace = s.trace ++ [entry]) (he : RecordedRight t entry) : RecordInv t := by
  intro e hm
  rw [ht] at hm
  obtain hm | hm := List.mem_append.mp hm
  · exact recordedRight_of_live hl hc hpar (h e hm)
  · exact List.mem_singleton.mp hm ▸ he

theorem recordInv_of_same {s t : State} (h : RecordInv s) (hl : Live s) (hc : t.cfg = s.cfg) (hpar : t.params = s.params)
    (ht : t.trace = s.trace) : RecordInv t := fun e hm => recordedRight_of_live hl hc hpar (h e (ht ▸ hm))

/-- The step lemma of the record invariant. -/
theorem recordInv_of_stepKind {s t : State} (hl : Live s) (h : RecordInv s) (hk : StepKind s t) : RecordInv t := by
  cases hk with
  | held => exact recordInv_of_same h hl rfl rfl rfl
  | performed event rest hp =>
    refine recordInv_append h hl (by simp) (by simp) (performed_trace event s) ?_
    exact recordedRight_of_live hl (by simp) (by simp) (recordedRight_performedEntry event s)
  | reset => exact recordInv_of_same h hl rfl rfl rfl
  | waited => exact h
  | accepted => exact recordInv_of_same h hl rfl rfl rfl
  | faulted reason => exact recordInv_append h hl rfl rfl rfl rfl
  | refused reason => exact recordInv_append h hl rfl rfl rfl rfl

/-! ## Settled -/

/-- Settles O46, kind of step by kind of step: what is loaded is issued or initialization's, what is recorded was pending. -/
theorem onlyTheListedWritesAreEverEmitted : Obligations.OnlyTheListedWritesAreEverEmitted := fun _ _ h hs =>
  emissionInv_of_stepKind h (stepKind_of_step hs)

/-- Settles O47: record and pending events form one list, which a performed event does not change. -/
theorem everyWriteIsFollowedByItsWait : Obligations.EveryWriteIsFollowedByItsWait := fun _ _ h hs =>
  settleInv_of_stepKind h (stepKind_of_step hs)

/-- Settles O48: only unmarked blocks step, and every entry is right when it is made. -/
theorem theRecordStaysRight : Obligations.TheRecordStaysRight := fun _ _ h hs =>
  recordInv_of_stepKind (live_of_step hs) h (stepKind_of_step hs)

end Sys2Proof.Machine

/-! SUPPORT. The request port: a request's length, and what an idle block does with the byte string it holds (30_encoding R110 to R113,
60_exceptions R234, R237). -/

namespace Sys2Proof.Machine

/-! ## The length of a request -/

/-- A request row has a length whatever follows its code; `parse` fails on what is shorter and leaves what is longer (R110, R113). -/
def RowReadsLength (row : RequestRow) : Prop :=
  ∀ rest, ∃ n, requestLength (row.code :: rest) = some n ∧ (row.parse rest = none → rest.length + 1 < n) ∧
    ∀ i more, row.parse rest = some (i, more) → more.length + n = rest.length + 1

theorem writeCharRow_readsLength : RowReadsLength ⟨0x01, parseWriteChar⟩ := by
  refine fun rest => ⟨2, rfl, ?_⟩
  match rest with
  | [] => exact ⟨fun _ => by simp, fun _ _ h => by cases h⟩
  | _ :: _ => exact ⟨fun h => (by cases h), fun _ _ h => (by cases h; rfl)⟩

theorem printStringRow_readsLength : RowReadsLength ⟨0x02, parsePrintString⟩ := by
  refine fun rest => ⟨2 + (rest.headD 0).toNat, rfl, ?_⟩
  match rest with
  | [] => exact ⟨fun _ => by simp, fun _ _ h => by cases h⟩
  | n :: rest =>
    refine ⟨fun h => ?short, fun i more h => ?long⟩
    case short =>
      have hn : ¬n.toNat ≤ rest.length := fun hn => by simp [parsePrintString, hn] at h
      simp only [List.headD_cons, List.length_cons]
      omega
    case long =>
      obtain ⟨hn, heq⟩ := parsePrintString_some h
      cases heq
      simp only [List.headD_cons, List.length_cons, List.length_drop]
      omega

theorem setCursorPositionRow_readsLength : RowReadsLength ⟨0x03, parseSetCursorPosition⟩ := by
  refine fun rest => ⟨3, rfl, ?_⟩
  match rest with
  | [] | [_] => exact ⟨fun _ => by simp, fun _ _ h => by cases h⟩
  | _ :: _ :: _ => exact ⟨fun h => (by cases h), fun _ _ h => (by cases h; rfl)⟩

theorem loadCustomCharRow_readsLength : RowReadsLength ⟨0x04, parseLoadCustomChar⟩ := by
  refine fun rest => ⟨10, rfl, ?_⟩
  match rest with
  | [] | [_] | [_, _] | [_, _, _] | [_, _, _, _] | [_, _, _, _, _] | [_, _, _, _, _, _] | [_, _, _, _, _, _, _]
  | [_, _, _, _, _, _, _, _] => exact ⟨fun _ => by simp, fun _ _ h => by cases h⟩
  | _ :: _ :: _ :: _ :: _ :: _ :: _ :: _ :: _ :: _ => exact ⟨fun h => (by cases h), fun _ _ h => (by cases h; rfl)⟩

theorem bareRow_readsLength {code : Byte} {i : Instr} (h : ∀ rest, requestLength (code :: rest) = some 1) :
    RowReadsLength (bareRow code i) :=
  fun rest => ⟨1, h rest, fun hn => (by cases hn), fun _ _ hs => (by cases hs; rfl)⟩

theorem requestRows_readLength : ∀ row ∈ requestRows, RowReadsLength row :=
  forall_requestRows writeCharRow_readsLength printStringRow_readsLength setCursorPositionRow_readsLength
    loadCustomCharRow_readsLength fun _ _ _ _ _ hlen => bareRow_readsLength hlen

/-- A reserved code has no length (R113). -/
theorem requestLength_of_reserved {code : Byte} (h : requestRow code = none) (rest : List Byte) :
    requestLength (code :: rest) = none := by
  have hcodes : code.toNat ≠ 1 ∧ code.toNat ≠ 2 ∧ code.toNat ≠ 3 ∧ code.toNat ≠ 4 ∧
      ¬(0x10 ≤ code.toNat ∧ code.toNat ≤ 0x15 ∨ 0x20 ≤ code.toNat ∧ code.toNat ≤ 0x23 ∨ code.toNat = 0x30 ∨
        code.toNat = 0x31 ∨ code.toNat = 0x40 ∨ code.toNat = 0x41) := by
    revert code
    decide +kernel
  obtain ⟨h1, h2, h3, h4, hbare⟩ := hcodes
  simp only [requestLength] -- the four codes with operands are excluded by h1 to h4
  exact if_neg hbare

/-- The port's decoder, by the length of the request: reserved, too short, or read for exactly that length. -/
theorem decodeRequest_cases (code : Byte) (rest : List Byte) :
    requestLength (code :: rest) = none ∧ decodeRequest (code :: rest) = .error .reservedRequest ∨
      ∃ n, requestLength (code :: rest) = some n ∧
        (rest.length + 1 < n ∧ decodeRequest (code :: rest) = .error .truncatedRequest ∨
          ∃ i more, decodeRequest (code :: rest) = .ok (i, more) ∧ more.length + n = rest.length + 1) := by
  cases hrow : requestRow code with
  | none => exact .inl ⟨requestLength_of_reserved hrow rest, by simp [decodeRequest, hrow]⟩
  | some row =>
    obtain ⟨hmem, rfl⟩ := requestRow_some hrow
    obtain ⟨n, hn, hshort, hlong⟩ := requestRows_readLength row hmem rest
    refine .inr ⟨n, hn, ?_⟩
    cases hparse : row.parse rest with
    | none => exact .inl ⟨hshort hparse, by simp [decodeRequest, hrow, hparse]⟩
    | some answer => exact .inr ⟨answer.1, answer.2, by simp [decodeRequest, hrow, hparse], hlong _ _ hparse⟩

/-! ## The step of an idle block -/

theorem runRequest_of_ok {bytes : List Byte} {answer : Instr × List Byte} (h : decodeRequest bytes = .ok answer) (s : State) :
    runRequest bytes s = exec answer.1 s := by
  simp [runRequest, h]

theorem runRequest_of_reserved {bytes : List Byte} {s : State} (hl : Live s) (h : decodeRequest bytes = .error .reservedRequest) :
    runRequest bytes s = .next (refuse .reservedRequest s) := by
  simp [runRequest, h, whenLive_of_live hl]

theorem runRequest_of_truncated {bytes : List Byte} {s : State} (hl : Live s) (h : decodeRequest bytes = .error .truncatedRequest) :
    runRequest bytes s = .next (refuse .truncatedRequest s) := by
  simp [runRequest, h, whenLive_of_live hl]

/-- Everything that accepting a request does to the port is to take its head. -/
theorem acceptIdle_requests (op : HdCodes → Shadow → OpResult) (s : State) : (acceptIdle op s).requests = s.requests.tail := by
  cases hop : op s.params.hdCodes s.sh with
  | done sh events => rw [acceptIdle_done hop, takeRequest_requests]
  | raise reason => rw [acceptIdle_raise hop, raiseFault_requests, takeRequest_requests]

/-! ## Marks -/

theorem step_of_fault {s : State} {reason : FaultReason} (h : s.fault = some reason) : step s = .fault (.faulted reason) := by
  simp [step, nextStep, h]

theorem step_of_refused {s : State} (hf : s.fault = none) (hr : s.refused = true) : step s = .refused .blockRefused := by
  simp [step, nextStep, hf, hr]

/-- Every instruction answers through `whenLive`. -/
theorem exec_eq_whenLive (i : Instr) (s : State) : ∃ answer, exec i s = whenLive s answer := by
  by_cases hf : i.format = .request
  · exact ⟨_, exec_request hf s⟩
  · exact ⟨_, exec_write hf s⟩

/-! ## Settled -/

/-- Settles O4: the decoder answers by the request's length, and the idle block's step follows the decoder. -/
theorem reservedAndTruncatedRequestsAreRefused : Obligations.ReservedAndTruncatedRequestsAreRefused := by
  intro s bytes more hi hr hq hne
  have hl : Live s := (isIdle_iff.mp hi).2.2
  rw [step_of_request hi hr hq]
  match bytes, hne with
  | code :: rest, _ =>
    obtain ⟨hnone, hd⟩ | ⟨n, hsome, ⟨hlt, hd⟩ | ⟨i, left, hd, hlen⟩⟩ := decodeRequest_cases code rest
    · exact ⟨fun _ => runRequest_of_reserved hl hd, fun m hm => (by simp [hnone] at hm), fun m hm => (by simp [hnone] at hm)⟩
    · refine ⟨fun h => (by simp [hsome] at h), fun m hm _ => runRequest_of_truncated hl hd, fun m hm hle => ?_⟩
      obtain rfl : n = m := Option.some.inj (hsome.symm.trans hm)
      exact absurd hle (Nat.not_le.mpr hlt)
    · refine ⟨fun h => (by simp [hsome] at h), fun m hm hlt => ?_, fun m hm _ => ?_⟩
      · obtain rfl : n = m := Option.some.inj (hsome.symm.trans hm)
        simp only [List.length_cons] at hlt
        omega
      · obtain rfl : n = m := Option.some.inj (hsome.symm.trans hm)
        exact ⟨i, left, hd, hlen, runRequest_of_ok hd s⟩

/-- Settles O12: only an idle block whose reset input is not asserted accepts. -/
theorem requestsAreHeldUntilIdle : Obligations.RequestsAreHeldUntilIdle := by
  refine ⟨fun i s hf hl hi => ?held, fun s t h hbusy => ?taken⟩
  case held => rw [exec_request hf, accept_of_busy hl hi]
  case taken =>
    have hnot : isIdle s = true → s.resetIn = false → t.requests = s.requests := fun hi hr => by simp [hi, hr] at hbusy
    cases stepKind_of_step h with
    | held | reset | waited => rfl
    | performed => simp
    | accepted i sh events hi hr => exact hnot hi hr
    | faulted reason hi hr => exact hnot hi hr
    | refused => rfl

/-- Settles O13: accepted or faulting, the request has been taken. -/
theorem acceptedRequestLeavesThePort : Obligations.AcceptedRequestLeavesThePort := by
  intro i s hf hi
  exact ⟨_, exec_request_of_idle hf hi, acceptIdle_requests _ s⟩

/-- Settles O14: the step looks at the marks first, and so does every instruction, through `whenLive`. -/
theorem markedBlockStops : Obligations.MarkedBlockStops := by
  intro i s
  obtain ⟨answer, hx⟩ := exec_eq_whenLive i s
  rw [hx]
  exact ⟨fun r hf => ⟨step_of_fault hf, whenLive_faulted hf answer⟩,
    fun hf hr => ⟨step_of_refused hf hr, whenLive_refused hf hr answer⟩⟩

/-- Settles O9: a request is run by `runRequest`, a fetched row by `performEvent`, and a row always answers. -/
theorem stepRunsTheDecodedInstruction : Obligations.StepRunsTheDecodedInstruction := by
  refine ⟨fun s bytes more i rest hi hr hq hd => ?request, fun s bytes rest i hl hp hf => ?write⟩
  case request => rw [step_of_request hi hr hq, runRequest_of_ok hd]
  case write =>
    have hx : exec i s = .next (performed (.tx bytes) s) := by
      rw [← performEvent_of_live hl, performEvent, hf]
    exact ⟨_, hx, step_of_head hl hp⟩

end Sys2Proof.Machine

/-! SUPPORT. What each kind of step leaves in the phase, in `pending`, on record and in the marks, and any number of steps over the
pending events (20_memory R76 to R78, 42_init_sequencer R160, R172, 10_state R34, R42, R47, R48). -/

namespace Sys2Proof.Machine

/-! ## Retiring -/

/-- Where nothing is left, the block is Ready, whatever the phase was. -/
theorem retire_phase_eq (s : State) : (retire s).phase = if s.pending.tail = [] then .ready else s.phase := by
  rw [retire_phase]
  cases s.phase with
  | init => simp
  | ready => simp

theorem retire_pending_ne {s : State} (h : (retire s).phase = .init) : (retire s).pending ≠ [] := by
  intro hp
  rw [retire_phase_eq, if_pos ((retire_pending s).symm.trans hp)] at h
  cases h

theorem retire_head {s : State} {event : Event} {rest : List Event} (hp : s.pending = event :: rest) :
    (retire s).pending = rest ∧ (retire s).phase = if rest = [] then .ready else s.phase := by
  rw [retire_phase_eq, retire_pending, hp, List.tail_cons]
  exact ⟨rfl, rfl⟩

theorem retire_of_head {s : State} {event : Event} {rest : List Event} (hp : s.pending = event :: rest) :
    retire s = { s with pending := rest, phase := if rest = [] ∧ s.phase = .init then .ready else s.phase } := by
  rw [retire, hp, List.tail_cons]

/-- A write is the state of `writtenState`. -/
theorem performTx_eq_writtenState (bytes : List Byte) (s : State) : performTx bytes s = writtenState s bytes (nextResult s bytes) := rfl

/-- Whatever the transport answers, performing and retiring the head takes that event from `pending` and touches no mark. -/
theorem performAndRetire_head {s : State} {event : Event} {rest : List Event} (hl : Live s) (hp : s.pending = event :: rest)
    (answer : TransportResult) :
    (performAndRetire answer event s).pending = rest ∧ (performAndRetire answer event s).sh = s.sh ∧
      Live (performAndRetire answer event s) ∧ history (performAndRetire answer event s).trace = history s.trace ++ [event] ∧
      (performAndRetire answer event s).phase = if rest = [] then .ready else s.phase := by
  cases event with
  | wait name =>
    obtain ⟨hpending, hphase⟩ := retire_head (s := performWait name s) hp
    exact ⟨hpending, rfl, hl, history_append .., hphase⟩
  | tx bytes =>
    obtain ⟨hpending, hphase⟩ := retire_head (s := performTxWith answer bytes s) hp
    exact ⟨hpending, rfl, hl, history_append .., hphase⟩

/-! ## Any number of steps -/

/-- `t` is `s` after its first `k` pending events: performed and recorded in order, with the shadow and the marks as they were. -/
structure Advanced (k : Nat) (s t : State) : Prop where
  pending : t.pending = s.pending.drop k
  history : history t.trace = history s.trace ++ s.pending.take k
  sh : t.sh = s.sh
  live : Live t
  phase : t.phase = if k = s.pending.length ∧ s.pending ≠ [] then .ready else s.phase

theorem Advanced.refl {s : State} (hl : Live s) : Advanced 0 s s where
  pending := rfl
  history := (List.append_nil _).symm
  sh := rfl
  live := hl
  phase := by
    rw [if_neg]
    rintro ⟨hlen, hne⟩
    exact hne (List.length_eq_zero_iff.mp hlen.symm)

/-- A held step changes nothing that is spoken of. -/
theorem Advanced.of_hold {k : Nat} {s t : State} (h : Advanced k (hold s) t) : Advanced k s t := ⟨h.1, h.2, h.3, h.4, h.5⟩

theorem Advanced.of_retire {k : Nat} {s t : State} {event : Event} {rest : List Event} (hl : Live s)
    (hp : s.pending = event :: rest) (hk : k ≤ rest.length) (h : Advanced k (retire (performed event s)) t) :
    Advanced (k + 1) s t := by
  rw [← performAndRetire_answerTo] at h
  obtain ⟨hpending, hsh, -, hhistory, hphase⟩ := performAndRetire_head hl hp (answerTo event s)
  refine ⟨?_, ?_, h.sh.trans hsh, h.live, ?_⟩
  · rw [h.pending, hpending, hp, List.drop_succ_cons]
  · rw [h.history, hhistory, hpending, hp, List.take_succ_cons, List.append_assoc, List.singleton_append]
  · rw [h.phase, hpending, hphase, hp]
    cases rest with
    | nil =>
      obtain rfl : k = 0 := Nat.le_zero.mp hk
      simp
    | cons next rest => simp

theorem endings_zero (k : Nat) : endings k 0 = 0 := rfl

theorem endings_succ (k n : Nat) : endings k (n + 1) = (if Config.eventEnds k then 1 else 0) + endings (k + 1) n := by
  rw [endings, List.range'_succ, List.filter_cons]
  split
  · rw [List.length_cons, Nat.add_comm, endings]
  · rw [Nat.zero_add, endings]

theorem runPending_of_empty {s : State} (hp : s.pending = []) (n : Nat) : runPending n s = .next s := by
  cases n with
  | zero => rfl
  | succ n => simp [runPending, hp]

theorem runPending_succ_of_head {s : State} {event : Event} {rest : List Event} (hl : Live s) (hp : s.pending = event :: rest)
    (n : Nat) :
    runPending (n + 1) s = runPending n (if Config.eventEnds s.draws then retire (performed event s) else hold s) := by
  simp [runPending, hp, step_of_head hl hp]

theorem live_performed_retire {s : State} (hl : Live s) (event : Event) : Live (retire (performed event s)) := by
  rwa [Live, retire_fault, retire_refused, performed_fault, performed_refused]

/-- Any number of steps performs exactly the events that the free values end, up to all that are pending. -/
theorem runPending_advances (n : Nat) (s : State) (hl : Live s) :
    ∃ t, runPending n s = .next t ∧ Advanced (min (endings s.draws n) s.pending.length) s t := by
  induction n generalizing s with
  | zero =>
    rw [endings_zero, Nat.zero_min]
    exact ⟨s, rfl, .refl hl⟩
  | succ n ih =>
    cases hp : s.pending with
    | nil =>
      rw [List.length_nil, Nat.min_zero]
      exact ⟨s, runPending_of_empty hp _, .refl hl⟩
    | cons event rest =>
      rw [runPending_succ_of_head hl hp, endings_succ]
      cases hends : Config.eventEnds s.draws with
      | false =>
        obtain ⟨t, ht, hadv⟩ := ih (hold s) hl
        refine ⟨t, ht, ?_⟩
        simpa [hp] using hadv.of_hold
      | true =>
        obtain ⟨t, ht, hadv⟩ := ih (retire (performed event s)) (live_performed_retire hl event)
        refine ⟨t, ht, ?_⟩
        simp only [retire_draws, performed_draws, retire_pending, performed_pending, hp, List.tail_cons] at hadv
        rw [if_pos rfl, List.length_cons, Nat.add_comm, Nat.succ_min_succ]
        exact hadv.of_retire hl hp (Nat.min_le_right ..)

/-! ## What every step leaves -/

theorem stepKind_cfg {s t : State} (hk : StepKind s t) : t.cfg = s.cfg := by
  cases hk with
  | performed => simp
  | _ => rfl

theorem stepKind_params {s t : State} (hk : StepKind s t) : t.params = s.params := by
  cases hk with
  | performed => simp
  | _ => rfl

theorem stepKind_trace {s t : State} (hk : StepKind s t) : t.trace = s.trace ∨ ∃ entry, t.trace = s.trace ++ [entry] := by
  cases hk with
  | performed event => exact .inr ⟨_, performed_trace event s⟩
  | faulted reason => exact .inr ⟨.fault reason, rfl⟩
  | refused reason => exact .inr ⟨.refusal reason, rfl⟩
  | held | reset | waited | accepted => exact .inl rfl

theorem phase_ne_init {p : Phase} : p ≠ .init ↔ p = .ready := by
  cases p <;> simp

/-- The two ways of the phase (10_state R47). -/
theorem stepKind_phase {s t : State} (hk : StepKind s t) :
    t.phase = s.phase ∨ (s.pending.length = 1 ∧ t.pending = [] ∧ t.phase = .ready) ∨
      (s.pending = [] ∧ s.resetIn = true ∧ t.phase = .init) := by
  cases hk with
  | performed event rest hp =>
    rw [retire_phase_eq, retire_pending, performed_pending, performed_phase, hp]
    cases rest with
    | nil => exact .inr (.inl ⟨rfl, rfl, rfl⟩)
    | cons next rest => exact .inl rfl
  | reset hp hr => exact .inr (.inr ⟨hp, hr, rfl⟩)
  | held | waited | accepted | faulted | refused => exact .inl rfl

theorem initEvents_ne_nil (codes : HdCodes) : initEvents codes ≠ [] := List.cons_ne_nil _ _

theorem initInv_of_stepKind {s t : State} (h : InitInv s) (hk : StepKind s t) : InitInv t := by
  intro hphase hpending
  cases hk with
  | held => exact h hphase hpending
  | performed => exact absurd hpending (retire_pending_ne hphase)
  | reset => exact absurd hpending (initEvents_ne_nil _)
  | waited => exact h hphase hpending
  | accepted i sh events hi => cases (isIdle_iff.mp hi).1.symm.trans hphase
  | faulted reason hi => cases (isIdle_iff.mp hi).1.symm.trans hphase
  | refused => rfl

theorem faultInv_of_stepKind {s t : State} (hl : Live s) (hk : StepKind s t) : FaultInv t := by
  obtain ⟨hfault, -⟩ := hl
  intro hne
  cases hk with
  | performed event rest hp => exact absurd hfault (by simpa using hne)
  | faulted reason hi => exact (isIdle_iff.mp hi).2.1
  | held | reset | waited | accepted | refused => exact absurd hfault hne

theorem statusAfter_bestEffort (status : Status) (result : TransportResult) : statusAfter .bestEffort status result = status := rfl

theorem performed_status_bestEffort {s : State} (h : s.params.failurePolicy = .bestEffort) (event : Event) :
    (performed event s).status = s.status := by
  cases event with
  | wait name => rfl
  | tx bytes => rw [performed_tx, performTx_status, h, statusAfter_bestEffort]

/-! ## Settled -/

/-- Settles O10: `step_of_head`, with the performed event's fields written out. -/
theorem headEventIsPerformedRecordedAndRemoved : Obligations.HeadEventIsPerformedRecordedAndRemoved := by
  intro s rest hl
  refine ⟨fun name hp => ?wait, fun bytes hp => ?write⟩
  case wait =>
    rw [step_of_head hl hp, performed_wait, retire_of_head (s := performWait name s) hp]
    rfl
  case write =>
    rw [step_of_head hl hp, performed_tx, performTx_eq_writtenState, retire_of_head (s := writtenState s bytes _) hp]
    rfl

/-- Settles O27: the taken reset is `takeReset`, and no other kind of step writes the input. -/
theorem resetIsTakenFirstAndOnlyWhenNothingPends : Obligations.ResetIsTakenFirstAndOnlyWhenNothingPends := by
  refine ⟨fun s hl hp hr => step_of_reset hl hp hr, fun s t h hne => ?held⟩
  case held =>
    cases stepKind_of_step h with
    | performed event => simp
    | reset hp => exact absurd hp hne
    | held | waited | accepted | faulted | refused => rfl

/-- Settles O33: configuration, parameters and trace, kind of step by kind of step. -/
theorem configurationIsNeverWrittenAndTheTraceOnlyGrows : Obligations.ConfigurationIsNeverWrittenAndTheTraceOnlyGrows := by
  intro s t h
  have hk := stepKind_of_step h
  refine ⟨stepKind_cfg hk, stepKind_params hk, ?_⟩
  obtain ht | ⟨entry, ht⟩ := stepKind_trace hk
  · exact ⟨[], Nat.zero_le 1, by rw [ht, List.append_nil]⟩
  · exact ⟨[entry], Nat.le_refl 1, ht⟩

/-- Settles O34: of the two ways of the phase, each is a change only from the other phase. -/
theorem phaseChangesOnlyByInitializationAndReset : Obligations.PhaseChangesOnlyByInitializationAndReset := by
  intro s t h hne
  obtain hsame | ⟨hlen, hpending, hphase⟩ | ⟨hp, hr, hphase⟩ := stepKind_phase (stepKind_of_step h)
  · exact absurd hsame hne
  · rw [hphase] at hne
    refine .inl ⟨?_, hphase, hlen, hpending⟩
    by_contra hph
    exact hne (phase_ne_init.mp hph).symm
  · rw [hphase] at hne
    exact .inr ⟨phase_ne_init.mp hne.symm, hphase, hp, hr⟩

/-- Settles O35: the three kinds of step that write `pending`. -/
theorem pendingIsWrittenInThreePlaces : Obligations.PendingIsWrittenInThreePlaces := by
  intro s t h hne
  cases stepKind_of_step h with
  | performed event rest hp => exact .inl ⟨event, by simp [hp]⟩
  | reset hp hr => exact .inr (.inl ⟨hp, hr, rfl⟩)
  | accepted i sh events hi hr hf hop hx => exact .inr (.inr ⟨(isIdle_iff.mp hi).2.1, hi, i, hf, hx⟩)
  | held | waited | faulted | refused => exact absurd rfl hne

/-- Settles O36: one step by `step_of_head`, any number by induction with `Advanced` as the invariant. -/
theorem everyPendingEventIsPerformedWhateverTheAnswers : Obligations.EveryPendingEventIsPerformedWhateverTheAnswers := by
  refine ⟨fun s event rest hl hp => ?one, fun n s hl => ?many⟩
  case one =>
    rw [step_of_head hl hp, performAndRetire_answerTo]
    exact ⟨rfl, performAndRetire_head hl hp⟩
  case many =>
    obtain ⟨t, ht, hadv⟩ := runPending_advances n s hl
    refine ⟨t, ht, hadv.pending, hadv.history, hadv.sh, hadv.live, hadv.phase, fun hall => ?_⟩
    rw [hadv.pending, Nat.min_eq_right hall, List.drop_length]

/-- Settles O40: the one writer of a failure is `statusAfter`, which writes none under BestEffort. -/
theorem bestEffortNeverReports : Obligations.BestEffortNeverReports := by
  refine ⟨fun s t h hpolicy hok => ?step, fun s hpolicy => ?read⟩
  case step =>
    cases stepKind_of_step h with
    | performed event => exact (performed_status_bestEffort hpolicy event).trans hok
    | reset | accepted | faulted => rfl
    | held | waited | refused => exact hok
  case read => rw [hostReadsStatus, hpolicy]

/-- Settles O49: an instruction writes no entry mode, and the reset value is the fixed one. -/
theorem entryModeNeverChanges : Obligations.EntryModeNeverChanges := by
  intro s t hfixed h
  obtain hsame | ⟨-, hreset⟩ | ⟨i, hx⟩ := step_sh_cases h
  · rwa [EntryModeFixed, hsame]
  · rw [EntryModeFixed, hreset]
    exact ⟨rfl, rfl⟩
  · rwa [EntryModeFixed, exec_keeps_of_shadowAfter Shadow.entryDirection hx (shadowAfter_entryDirection i s.sh),
      exec_keeps_of_shadowAfter Shadow.entryAutoShift hx (shadowAfter_entryAutoShift i s.sh)]

/-- Settles O50: the two step lemmas together. -/
theorem phaseAndFaultAgreeWithPending : Obligations.PhaseAndFaultAgreeWithPending := by
  rintro s t ⟨hinit, -⟩ h
  have hk := stepKind_of_step h
  exact ⟨initInv_of_stepKind hinit hk, faultInv_of_stepKind (live_of_step h) hk⟩

/-- The minimums of parameters in their bounds meet the spec's (70_reset_and_hazards R276). -/
theorem lowerBound_le_minimum {p : Params} (h : p.InContract) (name : WaitName) : name.lowerBound ≤ p.minimum name := by
  obtain ⟨hforce3, hinstr, htoggle, hclear⟩ := h
  cases name with
  | tPowerOn | tForce => exact Nat.le_refl 5000
  | tForce3 => exact hforce3
  | tInstr => exact hinstr
  | tToggle => exact htoggle
  | tClearHome => exact hclear

/-- Settles O51: by the record invariant a wait on record carries the parameters' minimum, and no step writes those. -/
theorem recordedWaitsMeetTheSpecMinimum : Obligations.RecordedWaitsMeetTheSpecMinimum := by
  refine fun s hc => ⟨lowerBound_le_minimum hc, fun hinv t h => ?_⟩
  have hk := stepKind_of_step h
  have hct : t.params.InContract := by rwa [stepKind_params hk]
  refine ⟨hct, fun name minimum hm => ?_⟩
  have hmin : minimum = t.params.minimum name := recordInv_of_stepKind (live_of_step h) hinv hk _ hm
  rw [hmin]
  exact lowerBound_le_minimum hct name

end Sys2Proof.Machine

/-! SUPPORT. What a step does not read: a view of the state that no kind of step sees through (60_exceptions R232, 10_state R35, R36,
R43). -/

namespace Sys2Proof.Machine

/-! ## Views -/

/-- What `view` hides is read neither by the choice of a step nor, past `view`, by what that step leaves. -/
structure Unread (view : State → State) : Prop where
  fault : ∀ s, (view s).fault = s.fault
  refused : ∀ s, (view s).refused = s.refused
  pending : ∀ s, (view s).pending = s.pending
  resetIn : ∀ s, (view s).resetIn = s.resetIn
  phase : ∀ s, (view s).phase = s.phase
  requests : ∀ s, (view s).requests = s.requests
  draws : ∀ s, (view s).draws = s.draws
  idem : ∀ s, view (view s) = view s
  hold : ∀ s, view (hold (view s)) = view (hold s)
  performed : ∀ event s, view (retire (performed event (view s))) = view (retire (performed event s))
  reset : ∀ s, view (takeReset (view s)) = view (takeReset s)
  accept : ∀ i s, view (acceptIdle (requestOp i) (view s)) = view (acceptIdle (requestOp i) s)
  refuse : ∀ reason s, view (refuse reason (view s)) = view (refuse reason s)

theorem viewed_whenLive {view : State → State} (hv : Unread view) {s a b : State} (h : view a = view b) :
    viewed view (whenLive (view s) a) = viewed view (whenLive s b) := by
  cases hf : s.fault with
  | some reason => rw [whenLive_faulted hf, whenLive_faulted ((hv.fault s).trans hf)]
  | none =>
    cases hr : s.refused with
    | true => rw [whenLive_refused hf hr, whenLive_refused ((hv.fault s).trans hf) ((hv.refused s).trans hr)]
    | false =>
      rw [whenLive_of_live ⟨hf, hr⟩, whenLive_of_live ⟨(hv.fault s).trans hf, (hv.refused s).trans hr⟩]
      exact congrArg Host.Outcome.next h

theorem Unread.live {view : State → State} (hv : Unread view) {s : State} (hl : Live s) : Live (view s) :=
  ⟨(hv.fault s).trans hl.1, (hv.refused s).trans hl.2⟩

theorem Unread.isIdle {view : State → State} (hv : Unread view) (s : State) : isIdle (view s) = isIdle s := by
  rw [Machine.isIdle, hv.phase, hv.pending, hv.fault, hv.refused]
  rfl

/-- A byte string that does not decode is refused for one reason, whatever the block's state. -/
theorem runRequest_of_error {bytes : List Byte} {e : DecodeError} (h : decodeRequest bytes = .error e) :
    ∃ reason, ∀ s, runRequest bytes s = whenLive s (refuse reason s) := by
  cases e with
  | reservedRequest => exact ⟨.reservedRequest, fun s => by simp [runRequest, h]⟩
  | _ => exact ⟨.truncatedRequest, fun s => by simp [runRequest, h]⟩

theorem viewed_runRequest {view : State → State} (hv : Unread view) {s : State} (hi : isIdle s = true) (bytes : List Byte) :
    viewed view (runRequest bytes (view s)) = viewed view (runRequest bytes s) := by
  have hi' : Machine.isIdle (view s) = true := (hv.isIdle s).trans hi
  cases hd : decodeRequest bytes with
  | ok answer =>
    obtain ⟨hf, -, -⟩ := encode_of_decodeRequest s.params.hdCodes hd
    rw [runRequest_of_ok hd, runRequest_of_ok hd, exec_request_of_idle hf hi, exec_request_of_idle hf hi']
    exact congrArg Host.Outcome.next (hv.accept answer.1 s)
  | error e =>
    obtain ⟨reason, hrefuse⟩ := runRequest_of_error hd
    rw [hrefuse, hrefuse]
    exact viewed_whenLive hv (hv.refuse reason s)

theorem step_of_waiting {s : State} (hl : Live s) (hp : s.pending = []) (hr : s.resetIn = false)
    (hw : s.phase = .init ∨ s.requests = []) : step s = .next s := by
  rw [step_of_empty hl hp]
  obtain hph | hq := hw
  · simp [idleStep, hr, hph, whenLive_of_live hl]
  · exact idleStep_of_no_request hl hr hq

/-- With nothing pending, the input and the port are looked at, and neither is hidden. -/
theorem viewed_step_of_empty {view : State → State} (hv : Unread view) {s : State} (hl : Live s) (hp : s.pending = []) :
    viewed view (step (view s)) = viewed view (step s) := by
  have hl' := hv.live hl
  have hp' : (view s).pending = [] := (hv.pending s).trans hp
  cases hr : s.resetIn with
  | true =>
    rw [step_of_reset hl hp hr, step_of_reset hl' hp' ((hv.resetIn s).trans hr)]
    exact congrArg Host.Outcome.next (hv.reset s)
  | false =>
    have hr' := (hv.resetIn s).trans hr
    have waiting (hw : s.phase = .init ∨ s.requests = []) : viewed view (step (view s)) = viewed view (step s) := by
      rw [step_of_waiting hl hp hr hw, step_of_waiting hl' hp' hr' (by rwa [hv.phase, hv.requests])]
      exact congrArg Host.Outcome.next (hv.idem s)
    cases hph : s.phase with
    | init => exact waiting (.inl hph)
    | ready =>
      cases hq : s.requests with
      | nil => exact waiting (.inr hq)
      | cons bytes more =>
        have hi : isIdle s = true := isIdle_iff.mpr ⟨hph, hp, hl⟩
        rw [step_of_request hi hr hq, step_of_request ((hv.isIdle s).trans hi) hr' ((hv.requests s).trans hq)]
        exact viewed_runRequest hv hi bytes

/-- Seen through an unread view, a state takes the step that its view takes. -/
theorem viewed_step_view {view : State → State} (hv : Unread view) (s : State) :
    viewed view (step (view s)) = viewed view (step s) := by
  cases hf : s.fault with
  | some reason => rw [step_of_fault hf, step_of_fault ((hv.fault s).trans hf)]
  | none =>
    cases hr : s.refused with
    | true => rw [step_of_refused hf hr, step_of_refused ((hv.fault s).trans hf) ((hv.refused s).trans hr)]
    | false =>
      have hl : Live s := ⟨hf, hr⟩
      cases hp : s.pending with
      | nil => exact viewed_step_of_empty hv hl hp
      | cons event rest =>
        rw [step_of_head hl hp, step_of_head (hv.live hl) ((hv.pending s).trans hp), hv.draws]
        cases Config.eventEnds s.draws with
        | true => exact congrArg Host.Outcome.next (hv.performed event s)
        | false => exact congrArg Host.Outcome.next (hv.hold s)

/-- Two states that agree past an unread view take the same step, and agree again past it. -/
theorem viewed_step_congr {view : State → State} (hv : Unread view) {s t : State} (h : view s = view t) :
    viewed view (step s) = viewed view (step t) := by
  rw [← viewed_step_view hv s, h, viewed_step_view hv t]

/-! ## Three unread views -/

/-- Acceptance reads the command table and the shadow, so what leaves those as they are is not read by it. -/
theorem view_acceptIdle_of_same {view : State → State} {s : State} (op : HdCodes → Shadow → OpResult)
    (hcodes : (view s).params.hdCodes = s.params.hdCodes) (hsh : (view s).sh = s.sh)
    (hdone : ∀ sh events, view { takeRequest (view s) with sh := sh, pending := events } =
      view { takeRequest s with sh := sh, pending := events })
    (hraise : ∀ reason, view (raiseFault reason (takeRequest (view s))) = view (raiseFault reason (takeRequest s))) :
    view (acceptIdle op (view s)) = view (acceptIdle op s) := by
  cases hop : op s.params.hdCodes s.sh with
  | done sh events =>
    rw [acceptIdle_done hop, acceptIdle_done (s := view s) (by rw [hcodes, hsh, hop])]
    exact hdone sh events
  | raise reason =>
    rw [acceptIdle_raise hop, acceptIdle_raise (s := view s) (by rw [hcodes, hsh, hop])]
    exact hraise reason

theorem unread_withoutPolicy : Unread withoutPolicy where
  fault _ := rfl
  refused _ := rfl
  pending _ := rfl
  resetIn _ := rfl
  phase _ := rfl
  requests _ := rfl
  draws _ := rfl
  idem _ := rfl
  hold _ := rfl
  performed event s := by
    cases event with
    | wait name => cases name <;> rfl
    | tx bytes => rfl
  reset _ := rfl
  accept i s := view_acceptIdle_of_same (requestOp i) rfl rfl (fun _ _ => rfl) fun _ => rfl
  refuse _ _ := rfl

theorem unread_withoutGeometry : Unread withoutGeometry where
  fault _ := rfl
  refused _ := rfl
  pending _ := rfl
  resetIn _ := rfl
  phase _ := rfl
  requests _ := rfl
  draws _ := rfl
  idem _ := rfl
  hold _ := rfl
  performed event s := by cases event <;> rfl
  reset _ := rfl
  accept i s := view_acceptIdle_of_same (requestOp i) rfl rfl (fun _ _ => rfl) fun _ => rfl
  refuse _ _ := rfl

/-- The shadow without its two SHIFT fields. -/
def hideShift (sh : Shadow) : Shadow := { sh with shiftScope := .cursor, shiftDirection := .left }

/-- No rule reads the SHIFT fields: the shift operations write both before they send the group (44_control_ops R206 to R209). -/
theorem requestOp_hideShift (i : Instr) (codes : HdCodes) (sh : Shadow) :
    (∃ reason, requestOp i codes (hideShift sh) = .raise reason ∧ requestOp i codes sh = .raise reason) ∨
      ∃ sh₁ sh₂ events, requestOp i codes (hideShift sh) = .done sh₁ events ∧ requestOp i codes sh = .done sh₂ events ∧
        hideShift sh₁ = hideShift sh₂ := by
  cases i with
  | setCursorPosition column line =>
    simp only [requestOp, opSetCursorPosition]
    cases rowOffset line with
    | none => exact .inl ⟨_, rfl, rfl⟩
    | some offset => exact .inr ⟨_, _, _, rfl, rfl, rfl⟩
  | loadCustomChar cell bitmap =>
    simp only [requestOp, opLoadCustomChar]
    by_cases hcell : 7 < cell.toNat
    · exact .inr ⟨_, _, _, if_pos hcell, if_pos hcell, rfl⟩
    · exact .inr ⟨_, _, _, if_neg hcell, if_neg hcell, rfl⟩
  | _ => exact .inr ⟨_, _, _, rfl, rfl, rfl⟩

theorem withoutShift_acceptIdle (i : Instr) (s : State) :
    withoutShift (acceptIdle (requestOp i) (withoutShift s)) = withoutShift (acceptIdle (requestOp i) s) := by
  obtain ⟨reason, h₁, h₂⟩ | ⟨sh₁, sh₂, events, h₁, h₂, hsh⟩ := requestOp_hideShift i s.params.hdCodes s.sh
  · rw [acceptIdle_raise h₂, acceptIdle_raise (s := withoutShift s) h₁]
    rfl
  · rw [acceptIdle_done h₂, acceptIdle_done (s := withoutShift s) h₁]
    exact congrArg (fun sh => { takeRequest s with sh := sh, pending := events }) hsh

theorem unread_withoutShift : Unread withoutShift where
  fault _ := rfl
  refused _ := rfl
  pending _ := rfl
  resetIn _ := rfl
  phase _ := rfl
  requests _ := rfl
  draws _ := rfl
  idem _ := rfl
  hold _ := rfl
  performed event s := by cases event <;> rfl
  reset _ := rfl
  accept i s := withoutShift_acceptIdle i s
  refuse _ _ := rfl

/-! ## Settled -/

/-- Settles O41: `status` has no reader but its own update, and the policy none but that. -/
theorem failurePolicyChangesOnlyStatus : Obligations.FailurePolicyChangesOnlyStatus := fun _ _ h =>
  viewed_step_congr unread_withoutPolicy h

/-- Settles O42: the rules that send the SHIFT group write both fields first. -/
theorem shiftFieldsAffectNoEvent : Obligations.ShiftFieldsAffectNoEvent := fun _ _ h =>
  viewed_step_congr unread_withoutShift h

/-- Settles O43: of the configuration a step reads the bus path and the address only. -/
theorem displayGeometryIsNeverRead : Obligations.DisplayGeometryIsNeverRead := fun _ _ h =>
  viewed_step_congr unread_withoutGeometry h

end Sys2Proof.Machine

/-! SUPPORT. What instructions leave: the writes of payload and wire rows, the accepted requests of 43_output_ops and 44_control_ops, and
the display group after a sequence of toggles. -/

namespace Sys2Proof.Machine

/-! ## Rows that are one write -/

theorem exec_write_of_live {i : Instr} {s : State} {words : List Byte} (hl : Live s) (hf : i.format ≠ .request)
    (hw : rowBytes s.params.hdCodes s.sh.backlightOn i = words) : exec i s = .next (writtenState s words (nextResult s words)) := by
  rw [exec_write hf, hw, performWrite, whenLive_of_live hl, performTx_eq_writtenState]

/-- Settles O15: both rows write the words the encoder gives them. -/
theorem wireRowsAreOneTransportWrite : Obligations.WireRowsAreOneTransportWrite := fun _ hl =>
  ⟨fun _ _ _ => exec_write_of_live hl nofun (frame_eq_frameWords ..),
    fun _ _ _ _ => exec_write_of_live hl nofun (burst_append ..)⟩

/-- Settles O16: each row's bytes are the drawn words of its payload. -/
theorem payloadRowsWriteTheirWords : Obligations.PayloadRowsWriteTheirWords := by
  refine fun s hl => ⟨fun i hf => ?command, fun d => ?data, ?force8, ?mode4⟩
  case command =>
    exact exec_write_of_live hl (by rw [hf]; decide) ((rowBytes_command _ _ hf).trans (burst_eq_burstWords ..))
  case data => exact exec_write_of_live hl nofun (burst_eq_burstWords ..)
  case force8 | mode4 => exact exec_write_of_live hl nofun (frame_eq_frameWords ..)

/-! ## Accepted requests -/

theorem flatMap_issue_eq (rs : Bool) (name : WaitName) (sh : Shadow) (str : List Byte) :
    (str.flatMap fun b => issue rs b name sh) = str.flatMap fun b => issueEvents sh.backlightOn rs b name := by
  simp only [issue_eq_issueEvents]

theorem writeCount_issue_append (rs : Bool) (v : Byte) (name : WaitName) (sh : Shadow) (events : List Event) :
    writeCount (issue rs v name sh ++ events) = writeCount events + 1 := rfl

theorem writeCount_flatMap_issue (rs : Bool) (name : WaitName) (sh : Shadow) (str : List Byte) :
    writeCount (str.flatMap fun b => issue rs b name sh) = str.length := by
  induction str with
  | nil => rfl
  | cons b str ih => rw [List.flatMap_cons, writeCount_issue_append, ih, List.length_cons]

/-- The rows of the table that a line selects (10_state R54). -/
theorem rowOffset_of_le {line : Byte} (h : line.toNat ≤ 3) :
    rowOffset line = some ([0x00, 0x40, 0x14, 0x54].getD line.toNat 0) := by
  revert h
  revert line
  decide +kernel

theorem rowOffset_of_gt {line : Byte} (h : 3 < line.toNat) : rowOffset line = none := List.getElem?_eq_none h

/-- The start address of a cell (30_encoding R109). -/
theorem cellAddress {cell : Byte} (h : cell.toNat ≤ 7) : cell.setWidth 6 <<< 3 = BitVec.ofNat 6 (8 * cell.toNat) := by
  revert h
  revert cell
  decide +kernel

/-- Settles O17: one `issue` for each byte. -/
theorem charactersAreIssuedToTheDataRegister : Obligations.CharactersAreIssuedToTheDataRegister := by
  intro s hi
  refine ⟨fun b => ⟨rfl, acceptsWith_of_issue rfl hi rfl⟩, fun str => ⟨rfl, acceptsWith_of_done rfl hi ?_⟩⟩
  rw [← flatMap_issue_eq]
  rfl

/-- Settles O18: a line of 0 to 3 has its offset in the table. -/
theorem cursorPositionIsIssuedAsDdramAddress : Obligations.CursorPositionIsIssuedAsDdramAddress := by
  intro column line s hi hline
  refine acceptsWith_of_issue rfl hi ?_
  rw [requestOp, opSetCursorPosition, rowOffset_of_le hline]
  rfl

/-- Settles O19: a line above 3 is past the table, so the rule raises. -/
theorem lineOutOfRangeRaisesTheFault : Obligations.LineOutOfRangeRaisesTheFault := by
  intro column line s hi hline
  have hop : requestOp (.setCursorPosition column line) s.params.hdCodes s.sh = .raise .lineOutOfRange := by
    rw [requestOp, opSetCursorPosition, rowOffset_of_gt hline]
  refine ⟨_, exec_request_of_idle rfl hi, ?_⟩
  rw [acceptIdle_raise hop]
  exact ⟨rfl, (isIdle_iff.mp hi).2.1, rfl, rfl⟩

/-- Settles O20: a cell of 0 to 7 has an address, one above 7 no events. -/
theorem customCharIsAnAddressAndEightRows : Obligations.CustomCharIsAnAddressAndEightRows := by
  intro cell bitmap s hi
  refine ⟨fun hcell => acceptsWith_of_done rfl hi ?_, fun hcell => acceptsWith_of_done rfl hi ?_⟩
  · rw [requestOp, opLoadCustomChar, if_neg (Nat.not_lt.mpr hcell), cgramCommand, cellAddress hcell, issue_eq_issueEvents,
      flatMap_issue_eq]
  · rw [requestOp, opLoadCustomChar, if_pos hcell]

/-- Settles O23: the group does not hold BL, so its byte is that of the shadow before. -/
theorem backlightTravelsWithItsOwnWrite : Obligations.BacklightTravelsWithItsOwnWrite := by
  intro s hi
  refine ⟨⟨rfl, ?on⟩, ⟨rfl, ?off⟩⟩
  all_goals exact acceptsWith_of_issue rfl hi rfl

/-- Settles O24: the rule is two `issue`s of constant commands. -/
theorem clearDisplayIsHomeThenClear : Obligations.ClearDisplayIsHomeThenClear := by
  refine fun s hi => ⟨rfl, acceptsWith_of_done rfl hi ?_⟩
  rw [← issue_eq_issueEvents, ← issue_eq_issueEvents]
  rfl

/-- Settles O25: the rule is one `issue` of a constant command. -/
theorem returnHomeSendsClearDisplay : Obligations.ReturnHomeSendsClearDisplay := fun _ hi =>
  ⟨rfl, acceptsWith_of_issue rfl hi rfl⟩

/-- Settles O26: the states of the characters are the acceptances of `write_char`. -/
theorem printStringIsWriteCharInOrder : Obligations.PrintStringIsWriteCharInOrder := by
  intro str s hi
  refine ⟨_, exec_request_of_idle rfl hi, writeCount_flatMap_issue true .tInstr s.sh str,
    str.map fun b => acceptIdle (opWriteChar b) s, List.length_map _, fun k b u hb hu => ?_, ?_⟩
  · rw [List.getElem?_map, hb] at hu
    cases hu
    exact exec_request_of_idle rfl hi
  · rw [List.flatMap_map]
    rfl

/-! ## Fields that control operations leave alone -/

theorem exec_of_acceptsWith {i : Instr} {s : State} {sh : Shadow} {events : List Event} (h : AcceptsWith i s sh events) :
    ∃ t, exec i s = .next t ∧ t.sh = sh ∧ t.pending = events := by
  obtain ⟨t, hx, ht⟩ := h
  exact ⟨t, hx, congrArg State.sh ht, congrArg State.pending ht⟩

theorem burstWords_backlight {bl rs : Bool} {v b : Byte} (h : b ∈ burstWords bl rs v) : b.getLsbD 3 = bl := by
  rw [← burst_eq_burstWords, burst_eq_frameBytes] at h
  simp only [List.mem_cons, List.not_mem_nil, or_false] at h
  obtain rfl | rfl | rfl | rfl | rfl | rfl := h
  all_goals exact frameByte_backlight ..

/-- Settles O55, from the acceptance of each operation (O21 to O25). -/
theorem controlOperationsKeepEachOthersFields : Obligations.ControlOperationsKeepEachOthersFields := by
  refine fun s hi => ⟨fun i hm => ?backlight, fun i hm => ?toggles, fun i hm => ?clearHome, fun display right x => ?shiftCommand,
    fun i hm => ?shifts⟩
  case backlight =>
    obtain ⟨⟨-, hon⟩, ⟨-, hoff⟩⟩ := backlightTravelsWithItsOwnWrite s hi
    have hacc : ∃ bl, AcceptsWith i s { s.sh with backlightOn := bl }
        (issueEvents bl false (displayControlByte s.params.hdCodes s.sh) .tToggle) := by
      simp only [List.mem_cons, List.not_mem_nil, or_false] at hm
      obtain rfl | rfl := hm
      · exact ⟨true, hon⟩
      · exact ⟨false, hoff⟩
    obtain ⟨bl, hacc⟩ := hacc
    obtain ⟨t, hx, hsh, hpending⟩ := exec_of_acceptsWith hacc
    exact ⟨t, _, hx, hpending, by rw [hsh]⟩
  case toggles =>
    obtain ⟨⟨-, hdon⟩, ⟨-, hdoff⟩, ⟨-, hcon⟩, ⟨-, hcoff⟩, ⟨-, hbon⟩, ⟨-, hboff⟩⟩ := displayTogglesResendTheWholeGroup s hi
    have hacc : ∃ sh, AcceptsWith i s sh (issueEvents sh.backlightOn false (displayControlByte s.params.hdCodes sh) .tToggle) ∧
        sh.backlightOn = s.sh.backlightOn := by
      simp only [List.mem_cons, List.not_mem_nil, or_false] at hm
      obtain rfl | rfl | rfl | rfl | rfl | rfl := hm
      · exact ⟨_, hdon, rfl⟩
      · exact ⟨_, hdoff, rfl⟩
      · exact ⟨_, hcon, rfl⟩
      · exact ⟨_, hcoff, rfl⟩
      · exact ⟨_, hbon, rfl⟩
      · exact ⟨_, hboff, rfl⟩
    obtain ⟨sh, hacc, hbl⟩ := hacc
    obtain ⟨t, hx, hsh, hpending⟩ := exec_of_acceptsWith hacc
    exact ⟨t, _, hx, hpending, by rw [hsh, hbl], fun b hb => (burstWords_backlight hb).trans hbl⟩
  case clearHome =>
    simp only [List.mem_cons, List.not_mem_nil, or_false] at hm
    obtain rfl | rfl := hm
    all_goals exact ⟨_, exec_request_of_idle rfl hi, rfl⟩
  case shiftCommand => exact ⟨_, exec_write_of_live (isIdle_iff.mp hi).2.2 nofun rfl, rfl⟩
  case shifts =>
    simp only [List.mem_cons, List.not_mem_nil, or_false] at hm
    obtain rfl | rfl | rfl | rfl := hm
    all_goals exact ⟨_, exec_request_of_idle rfl hi, rfl⟩

/-! ## A sequence of toggles -/

/-- What the last of the toggles `on` and `off` wrote, or the value before them. -/
def lastToggle (on off : Instr) (before : Bool) (toggles : List Instr) : Bool :=
  ((toggles.reverse.find? fun i => i == on || i == off).map fun i => i == on).getD before

theorem lastToggle_concat (on off : Instr) (before : Bool) (toggles : List Instr) (i : Instr) :
    lastToggle on off before (toggles ++ [i]) =
      if i == on || i == off then i == on else lastToggle on off before toggles := by
  rw [lastToggle, List.reverse_concat, List.find?_cons]
  cases i == on || i == off <;> rfl

/-- The fields of the display group after an instruction. -/
theorem shadowAfter_displayGroup (i : Instr) (sh : Shadow) :
    (shadowAfter i sh).displayOn = (if i == .displayOn || i == .displayOff then i == .displayOn else sh.displayOn) ∧
      (shadowAfter i sh).cursorOn = (if i == .cursorOn || i == .cursorOff then i == .cursorOn else sh.cursorOn) ∧
      (shadowAfter i sh).blinkOn = (if i == .blinkOn || i == .blinkOff then i == .blinkOn else sh.blinkOn) := by
  cases i <;> exact ⟨rfl, rfl, rfl⟩

/-- The state after a display-group toggle, its events taken as performed. -/
theorem afterOperation_toggle {i : Instr} {s : State} (hi : isIdle s = true)
    (hm : i ∈ [Instr.displayOn, .displayOff, .cursorOn, .cursorOff, .blinkOn, .blinkOff]) :
    isIdle (afterOperation s i) = true ∧ (afterOperation s i).params = s.params ∧ (afterOperation s i).sh = shadowAfter i s.sh := by
  have hx : exec i s = .next (acceptIdle (requestOp i) s) ∧ ∃ sh events, requestOp i s.params.hdCodes s.sh = .done sh events := by
    simp only [List.mem_cons, List.not_mem_nil, or_false] at hm
    obtain rfl | rfl | rfl | rfl | rfl | rfl := hm
    all_goals exact ⟨exec_request_of_idle rfl hi, _, _, rfl⟩
  obtain ⟨hx, sh, events, hop⟩ := hx
  obtain ⟨hph, -, hl⟩ := isIdle_iff.mp hi
  rw [afterOperation, hx]
  refine ⟨?_, ?_, acceptIdle_requestOp_sh i s⟩
  · rw [acceptIdle_done hop]
    exact isIdle_iff.mpr ⟨hph, rfl, hl⟩
  · rw [acceptIdle_done hop, takeRequest_params]

/-- After a sequence of toggles each field of the group holds what its last toggle wrote. -/
theorem foldl_afterOperation_toggles {s : State} (hi : isIdle s = true) (toggles : List Instr)
    (hm : ∀ i ∈ toggles, i ∈ [Instr.displayOn, .displayOff, .cursorOn, .cursorOff, .blinkOn, .blinkOff]) :
    isIdle (toggles.foldl afterOperation s) = true ∧ (toggles.foldl afterOperation s).params = s.params ∧
      (toggles.foldl afterOperation s).sh.displayOn = lastToggle .displayOn .displayOff s.sh.displayOn toggles ∧
      (toggles.foldl afterOperation s).sh.cursorOn = lastToggle .cursorOn .cursorOff s.sh.cursorOn toggles ∧
      (toggles.foldl afterOperation s).sh.blinkOn = lastToggle .blinkOn .blinkOff s.sh.blinkOn toggles := by
  induction toggles using List.reverseRecOn with
  | nil => exact ⟨hi, rfl, rfl, rfl, rfl⟩
  | append_singleton toggles i ih =>
    obtain ⟨hidle, hparams, hd, hc, hb⟩ := ih fun j hj => hm j (List.mem_append_left _ hj)
    obtain ⟨hidle', hparams', hsh⟩ := afterOperation_toggle hidle (hm i (by simp))
    obtain ⟨hd', hc', hb'⟩ := shadowAfter_displayGroup i (toggles.foldl afterOperation s).sh
    rw [List.foldl_concat, hsh, lastToggle_concat, lastToggle_concat, lastToggle_concat, ← hd, ← hc, ← hb]
    exact ⟨hidle', hparams'.trans hparams, hd', hc', hb'⟩

/-- Settles O37, by induction on the sequence from its end. -/
theorem lastToggleOfEachFieldWins : Obligations.LastToggleOfEachFieldWins := by
  intro toggles s hi hm
  obtain ⟨-, -, hd, hc, hb⟩ := foldl_afterOperation_toggles hi toggles hm
  show displayControlByte _ _ = _
  rw [displayControlByte, hd, hc, hb]
  rfl

/-! ## Results and the enable line -/

theorem foldl_statusAfter_of_failed {status : Status} (h : status ≠ .ok) (results : List TransportResult) :
    results.foldl (statusAfter .propagate) status = status := by
  induction results with
  | nil => rfl
  | cons r results ih =>
    have hkeep : statusAfter .propagate status r = status := by
      cases status with
      | ok => exact absurd rfl h
      | acquireFail | targetFail | shortWrite => rfl
    rw [List.foldl_cons, hkeep, ih]

theorem statusOf_ne_ok {r : TransportResult} (h : r ≠ .ok) : statusOf r ≠ .ok := by
  cases r with
  | ok => exact absurd rfl h
  | acquireFail | targetFail | shortWrite => exact Status.noConfusion

/-- Settles O39: a failed status is kept, and until then the next result decides. -/
theorem firstFailureIsKept : Obligations.FirstFailureIsKept := by
  refine fun results => ⟨?_, rfl⟩
  induction results with
  | nil => rfl
  | cons r results ih =>
    rw [List.foldl_cons, List.find?_cons]
    by_cases h : r = .ok
    · subst h
      exact ih
    · rw [bne_iff_ne.mpr h]
      exact foldl_statusAfter_of_failed (statusOf_ne_ok h) results

theorem fallingEdges_nil (e : Bool) : fallingEdges e [] = 0 := rfl

theorem fallingEdges_rise (e bl rs : Bool) (n : Nibble) (rest : List Byte) :
    fallingEdges e (frameByte n rs bl true :: rest) = fallingEdges true rest := by
  rw [fallingEdges, frameByte_enable, Bool.not_true, Bool.and_false, if_neg Bool.false_ne_true, Nat.zero_add]

theorem fallingEdges_fall (bl rs : Bool) (n : Nibble) (rest : List Byte) :
    fallingEdges true (frameByte n rs bl false :: rest) = 1 + fallingEdges false rest := by
  rw [fallingEdges, frameByte_enable]
  rfl

theorem fallingEdges_frameWords_take (e bl rs : Bool) (n : Nibble) {k : Nat} (hk : k < 3) :
    fallingEdges e ((frameWords n bl rs).take k) = 0 := by
  rw [frameWords_eq_frameBytes]
  interval_cases k <;> simp [fallingEdges_rise, fallingEdges_nil]

/-- E falls at the third byte of each frame, whatever its level was before. -/
theorem fallingEdges_burstWords_take (e bl rs : Bool) (v : Byte) (k : Nat) :
    fallingEdges e ((burstWords bl rs v).take k) = if k < 3 then 0 else if k < 6 then 1 else 2 := by
  rw [← burst_eq_burstWords, burst_eq_frameBytes]
  obtain hk | hk := Nat.lt_or_ge k 6
  · interval_cases k <;> simp [fallingEdges_rise, fallingEdges_fall, fallingEdges_nil]
  · rw [List.take_of_length_le hk, if_neg (by omega), if_neg (by omega)]
    simp [fallingEdges_rise, fallingEdges_fall, fallingEdges_nil]

/-- Settles O44: the edges are counted, and their parity is the pairing. -/
theorem cutShortBurstsBreakPairingAtThreeToFive : Obligations.CutShortBurstsBreakPairingAtThreeToFive := by
  refine fun e bl rs v n k => ⟨fallingEdges_burstWords_take .., ?_, fallingEdges_frameWords_take e bl rs n⟩
  rw [pairingKept, fallingEdges_burstWords_take, beq_iff_eq]
  split
  · simp; omega
  · split
    · simp; omega
    · simp; omega

end Sys2Proof.Machine

/-! SUPPORT. Bytes of the composers and of the standard command table, the packed shadow, construction and INIT_EVENTS, and the minimum
times of the operations (30_encoding R97 to R114, 10_state R40, R59, 42_init_sequencer R169, 70_reset_and_hazards R277). -/

namespace Sys2Proof.Machine

/-! ## Composers and address commands -/

/-- Settles O3: the words are decoded as written. -/
theorem sampleWordsDecode : Obligations.SampleWordsDecode := by
  unfold Obligations.SampleWordsDecode
  decide

theorem bitIf_eq_of_iff {b : Bool} {p : Prop} [Decidable p] (h : b = true ↔ p) (bit : Byte) :
    bitIf b bit = if p then bit else 0 := by
  rw [bitIf]
  exact if_congr h rfl rfl

theorem shiftByte_eq (codes : HdCodes) (sh : Shadow) :
    shiftByte codes sh = codes.shift ||| (if sh.shiftScope = .display then codes.shiftDisplay else 0) |||
      (if sh.shiftDirection = .right then codes.shiftRight else 0) := by
  rw [shiftByte, commandByte, bitIf_eq_of_iff beq_iff_eq, bitIf_eq_of_iff beq_iff_eq]
  exact BitVec.or_zero

/-- Settles O7: every composer is its group's row of `commandByte`. -/
theorem composersFollowTheCommandTable : Obligations.ComposersFollowTheCommandTable := by
  refine ⟨fun codes sh => ⟨rfl, ?entry, shiftByte_eq codes sh, ?function, rfl, BitVec.or_zero⟩, fun sh => ?standard, rfl, rfl, rfl⟩
  case entry =>
    rw [entryModeByte, commandByte, bitIf_eq_of_iff beq_iff_eq, bitIf]
  case function => simp [functionSetByte, commandByte, bitIf]
  case standard =>
    obtain ⟨d, c, b, direction, auto, scope, side, bl⟩ := sh
    refine ⟨?displayControl, ?entryMode, ?shiftGroup⟩
    case displayControl => cases d <;> cases c <;> cases b <;> rfl
    case entryMode => cases direction <;> cases auto <;> rfl
    case shiftGroup =>
      rw [shiftByte_eq]
      cases scope <;> cases side <;> rfl

/-- With bit 7 set, the byte of a sum keeps its low seven bits (30_encoding R108). -/
theorem setDdramAddress_or (m : Nat) : Config.setDdramAddress ||| (BitVec.ofNat 7 m).setWidth 8 = BitVec.ofNat 8 (0x80 ||| m) := by
  rw [BitVec.ofNat_or]
  ext k hk
  have hcase : k < 7 ∨ k = 7 := by omega
  obtain hlow | rfl := hcase
  · simp [Config.setDdramAddress, ← BitVec.getLsbD_eq_getElem, BitVec.getLsbD_ofNat, hlow, hk]
  · simp [Config.setDdramAddress]

theorem ddramCommand_eq (codes : HdCodes) (column : Byte) (offset : Nat) :
    ddramCommand codes column offset = BitVec.ofNat 8 (0x80 ||| (column.toNat + offset)) := setDdramAddress_or _

/-- Settles O8: bit 7 of the code hides what the sum carries into it, and the eight cells are computed. -/
theorem addressCommandsAreTruncatedSums : Obligations.AddressCommandsAreTruncatedSums := by
  refine ⟨fun codes column line hline => ⟨_, rowOffset_of_le hline, rfl, ?truncated, ddramCommand_eq ..⟩, fun codes cell hcell => ?cgram⟩
  case truncated =>
    rw [ddramCommand, commandByte, ← setDdramAddress_or]
    congr 2
    exact BitVec.eq_of_toNat_eq (by simp)
  case cgram =>
    show Config.setCgramAddress ||| (cell.setWidth 6 <<< 3).setWidth 8 = _
    revert hcell
    revert cell
    decide +kernel

/-! ## The standard command table -/

theorem commandByte_hdCodes {i : Instr} (h : i.format = .command) : commandByte Config.hdCodes i = drawnByte i := by
  have hall : ∀ j ∈ commands, commandByte Config.hdCodes j = drawnByte j := by decide +kernel
  exact hall i (mem_commands.mpr h)

theorem decodeCommandByte_eq_none {codes : HdCodes} {v : Byte} :
    decodeCommandByte codes v = none ↔ v ∉ commands.map (commandByte codes) := by
  simp [decodeCommandByte]

theorem mem_commandBytes_hdCodes {v : Byte} : v ∈ commands.map (commandByte Config.hdCodes) ↔ v ≠ 0 := by
  rw [commandBytes_hdCodes, List.mem_map]
  constructor
  · rintro ⟨n, hn, rfl⟩ hzero
    have hval : n % 2 ^ 8 = 0 := congrArg BitVec.toNat hzero
    rw [List.mem_range'_1] at hn
    omega
  · intro hne
    have hpos : v.toNat ≠ 0 := fun h => hne (BitVec.eq_of_toNat_eq h)
    have hlt : v.toNat < 2 ^ 8 := v.isLt
    exact ⟨v.toNat, List.mem_range'_1.mpr (by omega), BitVec.ofNat_toNat ..⟩

/-- Settles O53: the drawn bytes row by row, and that they count through every byte but 0x00. -/
theorem standardTableGivesTheDrawnBytes : Obligations.StandardTableGivesTheDrawnBytes :=
  ⟨fun _ hf => commandByte_hdCodes hf, fun _ => by rw [decodeCommandByte_eq_none, mem_commandBytes_hdCodes, not_ne_iff]⟩

/-- The commands the block emits have the bytes of 30_encoding R114. -/
theorem commandByte_emitted {i : Instr} (hf : i.format = .command) (he : i.emitted = true) :
    commandByte Config.hdCodes i ∈ [0x01, 0x02, 0x06, 0x10, 0x14, 0x18, 0x1C, (0x28 : Byte)] ∨
      (0x08 ≤ (commandByte Config.hdCodes i).toNat ∧ (commandByte Config.hdCodes i).toNat ≤ 0x0F) ∨
      (0x40 ≤ (commandByte Config.hdCodes i).toNat ∧ (commandByte Config.hdCodes i).toNat ≤ 0x78 ∧
        (commandByte Config.hdCodes i).toNat % 8 = 0) ∨ 0x80 ≤ (commandByte Config.hdCodes i).toNat := by
  revert he
  revert i
  simp only [← mem_commands]
  decide +kernel

/-- Settles O54: R114's bytes are those of the emitted commands, and each of its four ranges is a row's. -/
theorem emittedCommandBytesAreTheListOfTheSpec : Obligations.EmittedCommandBytesAreTheListOfTheSpec := by
  refine fun v => ⟨fun ⟨i, hf, he, hv⟩ => hv ▸ commandByte_emitted hf he, ?_⟩
  rintro (hsingle | ⟨hlo, hhi⟩ | ⟨hlo, hhi, hcell⟩ | hlo)
  · have hrow : ∀ b ∈ [0x01, 0x02, 0x06, 0x10, 0x14, 0x18, 0x1C, (0x28 : Byte)],
        ∃ i ∈ [Instr.cmdClearDisplay, .cmdReturnHome false, .cmdEntryModeSet true false, .cmdShift false false 0,
          .cmdShift false true 0, .cmdShift true false 0, .cmdShift true true 0, .cmdFunctionSet false true false 0],
          i.format = .command ∧ i.emitted = true ∧ commandByte Config.hdCodes i = b := by decide
    obtain ⟨i, -, hi⟩ := hrow v hsingle
    exact ⟨i, hi⟩
  · refine ⟨.cmdDisplayControl (v.getLsbD 2) (v.getLsbD 1) (v.getLsbD 0), rfl, rfl, ?_⟩
    revert v
    decide +kernel
  · refine ⟨.cmdSetCgramAddress (v.setWidth 6), rfl, ?_, ?_⟩
    · revert v
      decide +kernel
    · revert v
      decide +kernel
  · refine ⟨.cmdSetDdramAddress (v.setWidth 7), rfl, rfl, ?_⟩
    revert v
    decide +kernel

/-! ## The packed shadow -/

/-- Eight flags, each in its bit of a byte. -/
def packBits (b0 b1 b2 b3 b4 b5 b6 b7 : Bool) : Byte :=
  bitAt 0 b0 ||| bitAt 1 b1 ||| bitAt 2 b2 ||| bitAt 3 b3 ||| bitAt 4 b4 ||| bitAt 5 b5 ||| bitAt 6 b6 ||| bitAt 7 b7

theorem packBits_getLsbD : ∀ b0 b1 b2 b3 b4 b5 b6 b7 : Bool,
    (packBits b0 b1 b2 b3 b4 b5 b6 b7).getLsbD 0 = b0 ∧ (packBits b0 b1 b2 b3 b4 b5 b6 b7).getLsbD 1 = b1 ∧
    (packBits b0 b1 b2 b3 b4 b5 b6 b7).getLsbD 2 = b2 ∧ (packBits b0 b1 b2 b3 b4 b5 b6 b7).getLsbD 3 = b3 ∧
    (packBits b0 b1 b2 b3 b4 b5 b6 b7).getLsbD 4 = b4 ∧ (packBits b0 b1 b2 b3 b4 b5 b6 b7).getLsbD 5 = b5 ∧
    (packBits b0 b1 b2 b3 b4 b5 b6 b7).getLsbD 6 = b6 ∧ (packBits b0 b1 b2 b3 b4 b5 b6 b7).getLsbD 7 = b7 := by
  decide +kernel

theorem pack_eq_packBits (sh : Shadow) :
    sh.pack = packBits sh.blinkOn sh.cursorOn sh.displayOn sh.entryAutoShift (sh.entryDirection == .increment)
      (sh.shiftDirection == .right) (sh.shiftScope == .display) sh.backlightOn := rfl

theorem pack_getLsbD (sh : Shadow) : sh.pack.getLsbD 0 = sh.blinkOn ∧ sh.pack.getLsbD 1 = sh.cursorOn ∧
    sh.pack.getLsbD 2 = sh.displayOn ∧ sh.pack.getLsbD 3 = sh.entryAutoShift ∧
    sh.pack.getLsbD 4 = (sh.entryDirection == .increment) ∧ sh.pack.getLsbD 5 = (sh.shiftDirection == .right) ∧
    sh.pack.getLsbD 6 = (sh.shiftScope == .display) ∧ sh.pack.getLsbD 7 = sh.backlightOn := by
  rw [pack_eq_packBits]
  exact packBits_getLsbD ..

theorem unpack_pack (sh : Shadow) : Shadow.unpack sh.pack = sh := by
  obtain ⟨h0, h1, h2, h3, h4, h5, h6, h7⟩ := pack_getLsbD sh
  rw [Shadow.unpack, h0, h1, h2, h3, h4, h5, h6, h7]
  obtain ⟨_, _, _, direction, _, scope, side, _⟩ := sh
  cases direction <;> cases scope <;> cases side <;> rfl

theorem pack_unpack (v : Byte) : (Shadow.unpack v).pack = v := by
  revert v
  decide +kernel

/-- Settles O31: the bits are read off one by one, and each half of the round trip from them. -/
theorem packedShadowIsAFaithfulView : Obligations.PackedShadowIsAFaithfulView :=
  ⟨fun sh => ⟨unpack_pack sh, pack_getLsbD sh⟩, pack_unpack⟩

/-- Settles O38: the three fields a result can reach are read off `performTxWith`. -/
theorem transportResultReachesOnlyTraceAndStatus : Obligations.TransportResultReachesOnlyTraceAndStatus := by
  refine fun result bytes s => ⟨rfl, performTxWith_trace .., fun hpolicy => ?_⟩
  rw [performTxWith_status, hpolicy, statusAfter_bestEffort]

/-! ## Construction -/

theorem configRefusal_of_valid {cfg : DeviceConfig} (hlines : cfg.lines = 1 ∨ cfg.lines = 2 ∨ cfg.lines = 4)
    (haddress : cfg.targetAddress.toNat ≤ 0x7F) : configRefusal cfg = none := by
  rw [configRefusal, if_neg (by omega), if_neg (by omega)]

theorem configRefusal_of_badLines {cfg : DeviceConfig} (h : cfg.lines ≠ 1 ∧ cfg.lines ≠ 2 ∧ cfg.lines ≠ 4) :
    configRefusal cfg = some .badConfigLines := if_pos h

theorem configRefusal_of_badAddress {cfg : DeviceConfig} (hlines : ¬(cfg.lines ≠ 1 ∧ cfg.lines ≠ 2 ∧ cfg.lines ≠ 4))
    (haddress : 0x7F < cfg.targetAddress.toNat) : configRefusal cfg = some .badConfigAddress := by
  rw [configRefusal, if_neg hlines, if_pos haddress]

theorem construct_of_valid {cfg : DeviceConfig} (h : configRefusal cfg = none) (params : Params) :
    State.construct cfg params = State.powerOn cfg params := by
  rw [State.construct, h]

theorem construct_of_refusal {cfg : DeviceConfig} {reason : RefusalReason} (h : configRefusal cfg = some reason) (params : Params) :
    State.construct cfg params = (State.powerOn cfg params).refusedAtConstruction reason := by
  rw [State.construct, h]

theorem pack_reset : Shadow.reset.pack = 0x94 := by decide

/-- Settles O28: both records are valid, so each block is the power-on state. -/
theorem constructionGivesTheResetValues : Obligations.ConstructionGivesTheResetValues := by
  refine ⟨fun cfg params hlines haddress => ?_, rfl, ?_⟩
  · rw [construct_of_valid (configRefusal_of_valid hlines haddress)]
    exact ⟨rfl, rfl, rfl, pack_reset, rfl, rfl, rfl, rfl, rfl⟩
  · rw [State.reset, construct_of_valid rfl]
    exact ⟨pack_reset, rfl, rfl⟩

/-- Settles O29: a refused block carries its mark from construction on. -/
theorem badConfigurationIsRefusedAtConstruction : Obligations.BadConfigurationIsRefusedAtConstruction := by
  refine fun cfg params => ⟨fun hbad => ?refused, fun hlines _ => ?lines, fun hlines haddress => ?address⟩
  case refused =>
    have hreason : ∃ reason, configRefusal cfg = some reason := by
      by_cases hlines : cfg.lines ≠ 1 ∧ cfg.lines ≠ 2 ∧ cfg.lines ≠ 4
      · exact ⟨_, configRefusal_of_badLines hlines⟩
      · exact ⟨_, configRefusal_of_badAddress hlines (hbad.resolve_left hlines)⟩
    obtain ⟨reason, hreason⟩ := hreason
    rw [construct_of_refusal hreason]
    exact ⟨rfl, rfl, step_of_refused rfl rfl⟩
  case lines =>
    rw [construct_of_refusal (configRefusal_of_badLines hlines)]
    rfl
  case address =>
    rw [construct_of_refusal (configRefusal_of_badAddress hlines haddress)]
    rfl

/-- The power-on state has nothing on record and INIT_EVENTS pending; a refused block has its refusal on record and nothing pending. -/
theorem invariants_of_construct (cfg : DeviceConfig) (params : Params) :
    EmissionInv (State.construct cfg params) ∧ SettleInv (State.construct cfg params) ∧ RecordInv (State.construct cfg params) ∧
      EntryModeFixed (State.construct cfg params) ∧ InitInv (State.construct cfg params) ∧ FaultInv (State.construct cfg params) := by
  cases h : configRefusal cfg with
  | none =>
    rw [construct_of_valid h]
    exact ⟨⟨emits_initEvents params.hdCodes rfl, fun _ _ _ _ _ hm => by cases hm⟩, everyWriteSettles_initEvents params.hdCodes,
      fun _ hm => (by cases hm), ⟨rfl, rfl⟩, fun _ hp => absurd hp (initEvents_ne_nil _), fun hne => absurd rfl hne⟩
  | some reason =>
    rw [construct_of_refusal h]
    refine ⟨⟨fun _ hm => (by cases hm), fun _ _ _ _ _ hm => ?_⟩, rfl, fun entry hm => ?_, ⟨rfl, rfl⟩, fun _ _ => rfl,
      fun _ => rfl⟩
    · cases List.mem_singleton.mp hm
    · rw [List.mem_singleton.mp hm]
      rfl

/-- Settles O45: the reset state is a constructed one. -/
theorem invariantsHoldAfterConstruction : Obligations.InvariantsHoldAfterConstruction := by
  rintro cfg params s (rfl | rfl)
  · exact invariants_of_construct cfg params
  · exact invariants_of_construct Config.defaultDevice Config.defaultParams

/-! ## INIT_EVENTS -/

theorem initEvents_eq_spec (codes : HdCodes) : initEvents codes =
    ([.wait .tPowerOn, .tx [0x3C, 0x3C, 0x38], .wait .tForce, .tx [0x3C, 0x3C, 0x38], .wait .tForce,
      .tx [0x3C, 0x3C, 0x38], .wait .tForce3, .tx [0x2C, 0x2C, 0x28], .wait .tInstr] : List Event) ++
    issueEvents true false (commandByte codes (.cmdFunctionSet false true false 0)) .tInstr ++
    issueEvents true false (commandByte codes (.cmdDisplayControl true false false)) .tInstr ++
    issueEvents true false (commandByte codes (.cmdEntryModeSet true false)) .tInstr ++
    issueEvents true false (commandByte codes (.cmdShift false false 0)) .tInstr ++
    issueEvents true false (commandByte codes .cmdClearDisplay) .tClearHome ++
    issueEvents true false (commandByte codes (.cmdReturnHome false)) .tClearHome := by
  simp only [initEvents, initGroups, initClearHome, issue_eq_issueEvents]
  rfl

/-! ## Minimum times -/

theorem waitTotal_append (params : Params) (as bs : List Event) :
    waitTotal params (as ++ bs) = waitTotal params as + waitTotal params bs := by
  induction as with
  | nil => rw [List.nil_append, waitTotal, Nat.zero_add]
  | cons event as ih =>
    cases event with
    | wait name => rw [List.cons_append, waitTotal, waitTotal, ih, Nat.add_assoc]
    | tx bytes => rw [List.cons_append, waitTotal, waitTotal, ih]

theorem waitTotal_issueEvents (params : Params) (bl rs : Bool) (v : Byte) (name : WaitName) :
    waitTotal params (issueEvents bl rs v name) = params.minimum name := rfl

/-- Settles O30: the groups of initialization are `issue`s, and the lists that are left are computed. -/
theorem initEventsAreTheListOfTheSpec : Obligations.InitEventsAreTheListOfTheSpec := by
  refine ⟨initEvents_eq_spec, ?standard, fun codes => ⟨rfl, rfl, ?total⟩⟩
  case standard =>
    rw [initEvents_eq_spec]
    decide +kernel
  case total =>
    rw [initEvents_eq_spec]
    simp only [waitTotal_append, waitTotal_issueEvents]
    decide

theorem waitTotal_string (params : Params) (bl rs : Bool) (name : WaitName) (str : List Byte) :
    waitTotal params (str.flatMap fun b => issueEvents bl rs b name) = params.minimum name * str.length := by
  induction str with
  | nil => rfl
  | cons b str ih =>
    rw [List.flatMap_cons, waitTotal_append, waitTotal_issueEvents, ih, List.length_cons, Nat.mul_succ, Nat.add_comm]

theorem afterOperationEvents_of_acceptsWith {i : Instr} {s : State} {sh : Shadow} {events : List Event}
    (h : AcceptsWith i s sh events) : afterOperationEvents s i = events := by
  obtain ⟨t, hx, -, hpending⟩ := exec_of_acceptsWith h
  rw [afterOperationEvents, hx]
  exact hpending

theorem waitTotal_of_acceptsWith {i : Instr} {s : State} {sh : Shadow} {events : List Event} (h : AcceptsWith i s sh events) :
    waitTotal s.params (afterOperationEvents s i) = waitTotal s.params events := by
  rw [afterOperationEvents_of_acceptsWith h]

/-- The minimums do not depend on the command table. -/
theorem minimum_of_default {p : Params} (h : { p with hdCodes := Config.hdCodes } = Config.defaultParams) (name : WaitName) :
    p.minimum name = Config.defaultParams.minimum name := by
  rw [← h]
  cases name <;> rfl

/-- Every operation of 44_control_ops sections 1 to 3 issues one byte with T_TOGGLE. -/
theorem acceptsWith_toggleWait {i : Instr} {s : State} (hi : isIdle s = true)
    (hm : i ∈ [Instr.displayOn, .displayOff, .cursorOn, .cursorOff, .blinkOn, .blinkOff, .cursorShiftLeft, .cursorShiftRight,
      .displayShiftLeft, .displayShiftRight, .backlightOn, .backlightOff]) :
    ∃ sh v, AcceptsWith i s sh (issueEvents sh.backlightOn false v .tToggle) := by
  simp only [List.mem_cons, List.not_mem_nil, or_false] at hm
  obtain rfl | rfl | rfl | rfl | rfl | rfl | rfl | rfl | rfl | rfl | rfl | rfl := hm
  all_goals exact ⟨_, _, acceptsWith_of_issue rfl hi rfl⟩

/-- Settles O52: the events of each operation are known (O17 to O25), and their minimums are the defaults. -/
theorem minimumTimesOfOperations : Obligations.MinimumTimesOfOperations := by
  intro s hi hdefault
  have hmin := minimum_of_default hdefault
  obtain ⟨hchar, hstring⟩ := charactersAreIssuedToTheDataRegister s hi
  refine ⟨fun b => ?char, fun str => ?string, fun column line hline => ?cursor, fun cell bitmap hcell => ?custom,
    fun i hm => ?toggle, ?clear, ?home⟩
  case char =>
    refine (waitTotal_of_acceptsWith (hchar b).2).trans ?_
    rw [waitTotal_issueEvents, hmin]
    rfl
  case string =>
    refine (waitTotal_of_acceptsWith (hstring str).2).trans ?_
    rw [waitTotal_string, hmin]
    rfl
  case cursor =>
    refine (waitTotal_of_acceptsWith (cursorPositionIsIssuedAsDdramAddress column line s hi hline)).trans ?_
    rw [waitTotal_issueEvents, hmin]
    rfl
  case custom =>
    refine (waitTotal_of_acceptsWith ((customCharIsAnAddressAndEightRows cell bitmap s hi).1 hcell)).trans ?_
    rw [waitTotal_append, waitTotal_issueEvents, waitTotal_string, hmin, Vector.length_toList]
    rfl
  case toggle =>
    obtain ⟨sh, v, hacc⟩ := acceptsWith_toggleWait hi hm
    refine (waitTotal_of_acceptsWith hacc).trans ?_
    rw [waitTotal_issueEvents, hmin]
    rfl
  case clear =>
    refine (waitTotal_of_acceptsWith (clearDisplayIsHomeThenClear s hi).2).trans ?_
    rw [waitTotal_append, waitTotal_issueEvents, waitTotal_issueEvents, hmin]
    rfl
  case home =>
    refine (waitTotal_of_acceptsWith (returnHomeSendsClearDisplay s hi).2).trans ?_
    rw [waitTotal_issueEvents, hmin]
    rfl

end Sys2Proof.Machine
